-- ==== Sys2Proof/Word.lean ====
section
/-! DEFINITION. The byte and the index types of the Ilcora 4420 controller, and their plainest arithmetic. -/

namespace Sys2Proof

/-- One byte of a desk link, of job text or of the proof port. -/
abbrev Byte := BitVec 8

/-- A desk, and the link it is on: 0 to 3 (02_desk_links.md, opening). -/
abbrev Desk := Fin 4

/-- A job number, the index of a job record: 0 to 31 (R54). -/
abbrev JobId := Fin 32

/-- A turret position. The manual numbers them 1 to 6; index `p` here is position `p + 1`. -/
abbrev Pos := Fin 6

/-- A lens. The manual numbers them 1 to 12; index `l` here is lens `l + 1`. -/
abbrev Lens := Fin 12

/-- The byte with a numeric value, modulo 256. -/
def byteOf (n : Nat) : Byte := BitVec.ofNat 8 n

/-- `n` raised to `lo` and lowered to `hi` (`lo ≤ hi`). -/
def clampNat (lo hi n : Nat) : Nat := max lo (min hi n)

/-- `i` raised to `lo` and lowered to `hi` (`lo ≤ hi`). -/
def clampInt (lo hi i : Int) : Int := max lo (min hi i)

end Sys2Proof
end

