-- ==== Sys2Proof/Syntax.lean ====
section
/-! DEFINITION. The commands of the controller: one constructor for each row of spec/opcode_table.json.

A request of a desk is a frame on its link (R21, R22). A command that stands for a request carries what the frame's
payload holds: the whole payload as bytes where the row is one request type, and the payload without the byte that
tells the rows of one type apart (the action of DECIDE, the type of DIR-WRITE, the kind of TRIM-WRITE, the region of
SAVE, the pattern of TEST, the enable of PROOF-ENABLE) where several rows share a type. -/

namespace Sys2Proof

/-- The three kinds of font of a directory descriptor (05, "The font directory"). -/
inductive FontKind where
  | textFont
  | display
  | pi
  deriving DecidableEq, Repr

/-- The kind a CONFIRM event carries (mechanism port table, R150). -/
inductive ConfirmKind where
  | turret
  | lens
  deriving DecidableEq, Repr

/-- The commands, in the order of spec/opcode_table.json. -/
inductive Instr where
  | reset
  | badFrame (link : Desk) (bytes : List Byte)
  | keptFrameDropped (link : Desk) (type : Byte) (payload : List Byte)
  | keptRequestTaken (link : Desk)
  | frameSent (link : Desk)
  | unknownRequest (link : Desk) (type : Byte) (payload : List Byte)
  | openJob (link : Desk) (payload : List Byte)
  | text (link : Desk) (payload : List Byte)
  | close (link : Desk) (payload : List Byte)
  | cancel (link : Desk) (payload : List Byte)
  | decideProposed (link : Desk) (job : Byte) (tag : BitVec 16) (rest : List Byte)
  | decideDefault (link : Desk) (job : Byte) (tag : BitVec 16) (rest : List Byte)
  | decideRagged (link : Desk) (job : Byte) (tag : BitVec 16) (rest : List Byte)
  | decideBreakBefore (link : Desk) (job : Byte) (tag : BitVec 16) (rest : List Byte)
  | release (link : Desk) (payload : List Byte)
  | probe (link : Desk) (payload : List Byte)
  | queryJob (link : Desk) (payload : List Byte)
  | queryMachine (link : Desk) (payload : List Byte)
  | dictAdd (link : Desk) (payload : List Byte)
  | dictDelete (link : Desk) (payload : List Byte)
  | dictLookup (link : Desk) (payload : List Byte)
  | dirWriteFont (link : Desk) (number : Byte) (kind : FontKind) (rest : List Byte)
  | dirWriteGate (link : Desk) (number : Byte) (rest : List Byte)
  | dirWriteClear (link : Desk) (number : Byte) (rest : List Byte)
  | widthWrite (link : Desk) (payload : List Byte)
  | trimWriteLens (link : Desk) (rest : List Byte)
  | trimWriteBaseline (link : Desk) (rest : List Byte)
  | trimWriteExposureBase (link : Desk) (rest : List Byte)
  | settingWrite (link : Desk) (payload : List Byte)
  | saveSettings (link : Desk) (rest : List Byte)
  | saveDictionary (link : Desk) (rest : List Byte)
  | saveComplete
  | noticeMask (link : Desk) (payload : List Byte)
  | cut (link : Desk) (payload : List Byte)
  | testRule (link : Desk) (rest : List Byte)
  | testAlign (link : Desk) (rest : List Byte)
  | testPrint (link : Desk) (rest : List Byte)
  | proofConfig (link : Desk) (payload : List Byte)
  | proofEnableOn (link : Desk) (rest : List Byte)
  | proofEnableOff (link : Desk) (rest : List Byte)
  | linkReset (link : Desk) (payload : List Byte)
  | breakCondition (link : Desk)
  | holdTimerExpiry (link : Desk)
  | silenceTimerExpiry (link : Desk)
  | heldTimeout (job : JobId)
  | confirmTimerExpiry
  | flashTimeout
  | cutTimerExpiry
  | lineBuild
  | confirm (kind : ConfirmKind)
  | flashDone (reading : BitVec 10)
  | stripCode (pos : Pos) (code : Option Byte)
  | stripIn (pos : Pos) (code : Byte)
  | stripOut (pos : Pos)
  | lampChanged
  | clear
  | moveDone
  | cutDone
  | cutButton
  | magazineLoaded (feet : BitVec 16)
  | magazineOut
  | takeUpIn
  | takeUpOut
  | doorOpen
  | doorClosed
  | ready
  | paperOut
  | fault
  | accept
  | goodFrameKept (link : Desk) (type : Byte) (payload : List Byte)
  | returnToMarking (link : Desk)
  deriving DecidableEq, Repr

end Sys2Proof
end

