-- ==== Sys2Proof/Decode.lean ====
section
/-! DEFINITION. Commands spelled by words: spec/opcode_table.json gives no row bits, so no word spells a command. -/

namespace Sys2Proof

/-- The command a word of the table's bits spells: none, for every word. -/
def decodeTableWord (_nbits _w : Nat) : Option Instr := none

end Sys2Proof
end

