-- ==== Sys2Proof/Machine/Types.lean ====
section
/-! DEFINITION. The data the controller's state is made of, block by block: links, galley store, jobs, fonts and mount
table, composition, line records, imaging, film, proof channel, stored settings and the serial memory. -/

namespace Sys2Proof.Machine

/-! ## Composition settings and context (R9) -/

/-- Alignment of a line (R16). -/
inductive Alignment where
  | justify | left | right | center
  deriving DecidableEq, Repr

/-- Rounding of fine units to set steps (R16, R115). -/
inductive Rounding where
  | nearestEven | nearestUp | down | up
  deriving DecidableEq, Repr

/-- The five composition exceptions (R103): LOOSE, OVERSET, LADDER, NOBREAK, MISSING. -/
inductive Exc where
  | loose | overset | ladder | nobreak | missing
  deriving DecidableEq, Repr

/-- A set of exceptions, by the letters L, O, H, N, M: a mask (a member is unmasked), the marks of a line, sticky flags. -/
structure ExcSet where
  l : Bool
  o : Bool
  h : Bool
  n : Bool
  m : Bool
  deriving DecidableEq, Repr

/-- The settings of composition that the job code changes and that have a house default (table of R9). -/
structure Format where
  font : Nat
  size : Nat
  leading : Nat
  measure : Nat
  indent : Nat
  align : Alignment
  spMin : Nat
  spNorm : Nat
  spMax : Nat
  hyphenation : Bool
  minBefore : Nat
  minAfter : Nat
  ladder : Nat
  /-- Members are the unmasked exceptions. -/
  mask : ExcSet
  rounding : Rounding
  deriving DecidableEq, Repr

/-- The composition context of a job (R9). -/
structure Context where
  fmt : Format
  /-- Pending vertical move, −7,200 to +999 film counts. -/
  pendingV : Int
  /-- Consecutive-hyphen count (R127). -/
  hyphens : Nat
  /-- Text offset. -/
  offset : Nat
  /-- Line number, 1 upward. -/
  line : Nat
  /-- The model's own: the bytes of RULE runs read beyond the one place that each run takes in the pattern as the model
  holds it (R161; assumption 8). -/
  runBytes : Nat := 0
  deriving DecidableEq, Repr

/-! ## Desk links (02) -/

/-- A frame's type byte and payload; the lead, length and check bytes are made as it is sent (02, "The frame envelope"). -/
structure Frame where
  type : Byte
  payload : List Byte
  deriving DecidableEq, Repr

/-- The receiver: its phase, and in BODY the length byte and the bytes of the partial frame collected so far (R21). -/
inductive Receiver where
  | hunt
  | length
  | body (n : Nat) (got : List Byte)
  deriving DecidableEq, Repr

/-- What waits in the flow-control slot (R24). HOLD carries the hold time in units of 10 ms as it stood at placing. -/
inductive FlowFrame where
  | hold (time : Nat)
  | resume
  deriving DecidableEq, Repr

/-- One desk link (02, "Link state"). -/
structure Link where
  rx : Receiver
  /-- The receive line has been at spacing for a break and has not returned to marking (R36). -/
  spacing : Bool
  kept : Option Frame
  queue : List Frame
  /-- The frame in transmission, as the bytes sent: lead, length, type, payload and check byte (R24). -/
  sending : Option (List Byte)
  slot : Option FlowFrame
  hold : Bool
  /-- Hold timer: stopped, or running with the time it was started with, in units of 10 ms. -/
  holdTimer : Option Nat
  /-- Silence timer: stopped, or running with the time it was started with, in seconds. -/
  silenceTimer : Option Nat
  /-- Notice flags: bit `k` for kind code `k + 1`. -/
  flags : BitVec 11
  /-- Notice enable mask, numbered as the flags. -/
  mask : BitVec 11
  badFrames : Nat
  deriving DecidableEq, Repr

/-- The reply codes (02, "Controller frames"). -/
inductive ReplyCode where
  | ok | busy | full | limit | denied | noJob | badState | badValue | inUse | enabled | absent | unknown
  deriving DecidableEq, Repr

/-- The notice kinds (02, "Notices"). -/
inductive NoticeKind where
  | jobDelivered | proofDone | jobHeld | jobFaulted | jobAbandoned | mountWait | spoiled | filmLow | filmOut
  | imagingStopped | lampWeak
  deriving DecidableEq, Repr

/-- The job reasons (02, "Notices"). -/
inductive JobReason where
  | none | silence | linkReset | gap | overrun | oversize | cancel | codeError | fontRange | fontDenied
  deriving DecidableEq, Repr

/-! ## Galley store (03) -/

/-- The galley store. Text bytes are cells at address `32 × block + place` (R40). The free list is the blocks never yet
allocated, `fresh` to 2,047 in order, followed by the blocks returned since start-up, in the order returned (R41). -/
structure Store where
  cells : List (Nat × Byte)
  /-- Next-links that differ from their start-up value (R41). -/
  links : List (Nat × Option Nat)
  fresh : Nat
  returned : List Nat
  deriving DecidableEq, Repr

/-! ## Jobs (04) -/

/-- The ten job states (04, "States"). -/
inductive JobState where
  | free | receiving | queued | composing | waitMount | held | awaitRelease | composed | cancelled | faulted
  deriving DecidableEq, Repr

/-- Mode of a job. -/
inductive Mode where
  | set | proofOnly | proofThenSet | setAndProof
  deriving DecidableEq, Repr

/-- Phase of a PROOF-THEN-SET job. -/
inductive Phase where
  | proof | set
  deriving DecidableEq, Repr

/-- Class of a job. -/
inductive JobClass where
  | routine | priority | rush
  deriving DecidableEq, Repr

/-- Test kind of a job record. -/
inductive TestKind where
  | none | rule | align | print
  deriving DecidableEq, Repr

/-- Test pattern of a job record (R54). -/
inductive TestPattern where
  | none
  | rule (font : Nat)
  | align (fonts : List Nat)
  deriving DecidableEq, Repr

/-- A desk's decision on a held line (R65). -/
inductive Action where
  | proposed | default | ragged | breakBefore (k : Nat)
  deriving DecidableEq, Repr

/-- One entry of a decision list: a line, and at most one action for each exception kind (R67). -/
structure Decision where
  line : Nat
  l : Option Action
  o : Option Action
  h : Option Action
  n : Option Action
  m : Option Action
  deriving DecidableEq, Repr

/-- The held record of a job (R64). -/
structure HeldRecord where
  kind : Exc
  line : Nat
  words : Nat
  deriving DecidableEq, Repr

/-- One job record (R54); the job number is its index. -/
structure Job where
  state : JobState
  owner : Desk
  tag : BitVec 16
  level : Nat
  mode : Mode
  phase : Phase
  cls : JobClass
  cutAtEnd : Bool
  test : TestKind
  pattern : TestPattern
  firstBlock : Option Nat
  lastBlock : Option Nat
  bytes : Nat
  saved : Option Context
  composed : Nat
  exposed : Nat
  delivered : Nat
  proofed : Nat
  proofedHigh : Nat
  proofLost : Nat
  sticky : ExcSet
  reverseClamped : Bool
  held : Option HeldRecord
  /-- Held timer: stopped, or running with the time it was started with, in seconds. -/
  heldTimer : Option Nat
  decisions : List Decision
  waitedFont : Option Nat
  reason : JobReason
  /-- The job has appended an imaging-due TEXT record since its last CUT record (R20, R63, R69). -/
  textSinceCut : Bool
  deriving DecidableEq, Repr

/-- What the job queue holds beside the records: entry list, resume slot, rerun list (R56, R63, R76). -/
structure JobQueue where
  entry : List JobId
  resume : Option JobId
  rerun : List JobId
  deriving DecidableEq, Repr

/-! ## Fonts and mount table (05) -/

/-- Eight name bytes. -/
abbrev Name := Vector Byte 8

/-- A directory descriptor (05, "The font directory"). An EMPTY one keeps name bytes, which PROBE reports (R82). -/
inductive Descriptor where
  | empty (name : Name)
  | font (kind : FontKind) (level strip table density substitute : Nat) (hyphenate : Bool) (name : Name)
  | gate (level target : Nat) (size leading : Option Nat) (name : Name)
  deriving DecidableEq, Repr

/-- A width table: an entry for each byte 0x20 to 0x7F, and the loaded flag (R79). -/
structure WidthTable where
  widths : Vector Nat 96
  loaded : Bool
  deriving DecidableEq, Repr

/-- The font directory and the width tables (R78, R79). -/
structure Directory where
  desc : Vector Descriptor 64
  tables : Vector WidthTable 24
  deriving DecidableEq, Repr

/-- State of a turret position, with the font and the strip code it holds (R85). -/
inductive PosState where
  | empty
  | mounted (font strip : Nat)
  | unknown (strip : Nat)
  | duplicate (strip : Nat)
  deriving DecidableEq, Repr

/-- One turret position. -/
structure Position where
  st : PosState
  pins : Nat
  lastUse : Nat
  deriving DecidableEq, Repr

/-- A pending mount request (R93). -/
structure MountRequest where
  font : Nat
  suggested : Option Pos
  waiters : List JobId
  deriving DecidableEq, Repr

/-- The panel call: clear, or the call for a font's strip at a position, or at none (R94). -/
inductive PanelCall where
  | clear
  | call (font : Nat) (pos : Option Pos) (strip : Nat) (name : Name)
  deriving DecidableEq, Repr

/-- The mount table (05, "The mount table"). -/
structure MountTable where
  pos : Vector Position 6
  flashSeq : Nat
  requests : List MountRequest
  /-- Jobs waiting without a request, in the order they began to wait. -/
  waiting : List JobId
  panel : PanelCall
  deriving DecidableEq, Repr

/-! ## Composition engine (06) -/

/-- States of the engine (06, "The engine and its job"). -/
inductive EngineState where
  | idle | running | waitBuffer | waitScan
  deriving DecidableEq, Repr

/-- An owed CUT record: called for by a line, or by the end of the text (R99). -/
inductive OwedCut where
  | afterLine | atEnd
  deriving DecidableEq, Repr

/-- The composition engine between builds. -/
structure Engine where
  st : EngineState
  scanEnded : Bool
  owed : Option OwedCut
  work : Option Context
  deriving DecidableEq, Repr

/-! ## Exception dictionary (07) -/

/-- A dictionary entry: a word in lower case, its break list, its writer (R128). -/
structure DictEntry where
  word : List Byte
  breaks : List Nat
  writer : Desk
  deriving DecidableEq, Repr

/-- The dictionary: 256 buckets, each a chain, newest first (R128). -/
abbrev Dictionary := Vector (List DictEntry) 256

/-! ## Line buffer (08) -/

/-- One element of a composed line (R135). -/
structure Element where
  code : Byte
  font : Nat
  lens : Lens
  x : Nat
  pos : Option Pos
  /-- Space mark (R182). -/
  space : Bool
  deriving DecidableEq, Repr

/-- The fields of a TEXT record that the engine supplies (R116). -/
structure TextLine where
  line : Nat
  start : Context
  move : Int
  elements : List Element
  firstSpace : Option Nat
  hyphenated : Bool
  marks : ExcSet
  deriving DecidableEq, Repr

/-- Imaging field of a record (R135). -/
inductive ImgField where
  | notDue | due | busy | done
  deriving DecidableEq, Repr

/-- Proof field of a record (R135). -/
inductive ProofField where
  | notDue | due | busy | done | excused
  deriving DecidableEq, Repr

/-- A line record: a TEXT record carries a line, a CUT record none (R135). -/
structure Record where
  job : JobId
  text : Option TextLine
  img : ImgField
  proof : ProofField
  deriving DecidableEq, Repr

/-! ## Imaging (09) -/

/-- Sequencer states (09). -/
inductive ImgState where
  | starting | stopped | idle | advancing | setting | cutting
  deriving DecidableEq, Repr

/-- Stop reasons (02, R145). -/
inductive StopReason where
  | none | noFilm | filmOut | gate | turretFault | lensFault | cutFault | stripLost | lampFail
  deriving DecidableEq, Repr

/-- Start-up stage (R160). -/
inductive Stage where
  | scan | lensHome | done
  deriving DecidableEq, Repr

/-- What the sequencer awaits: the confirm of a move it sent, a flash, a strip reading, or the homing of the lens. -/
inductive ImgMove where
  | turret (p : Pos)
  | lens (l : Lens)
  | lensHome
  | flash
  | readStrip
  deriving DecidableEq, Repr

/-- Lens trims, baseline trims and exposure bases (R147). -/
structure Trims where
  lens : Vector Int 12
  base : Vector Int 6
  expo : Vector Nat 12
  deriving DecidableEq, Repr

/-- The imaging sequencer (09, "Sequencer state"). The record in hand is the record BUSY for imaging (R138). -/
structure Imaging where
  st : ImgState
  stop : StopReason
  /-- Index of the element being set. -/
  elem : Nat
  curPos : Option Pos
  curLens : Option Lens
  move : Option ImgMove
  retry : Nat
  /-- The retry limit as it stood at the last sending of a command (R150). -/
  limit : Nat
  /-- Confirm timer: stopped, or running with the time it was started with, in ms. -/
  confirmTimer : Option Nat
  stage : Stage
  written : Trims
  latched : Trims
  a64 : Nat
  seedPending : Bool
  soak : Nat
  lowRun : Nat
  weak : Bool
  failCleared : Bool
  deriving DecidableEq, Repr

/-! ## Film (10) -/

/-- A segment of the take list (R171). -/
structure Segment where
  job : JobId
  first : Nat
  last : Nat
  restart : Context
  deriving DecidableEq, Repr

/-- A film move in flight (R163). -/
inductive FilmMove where
  | advance (n : Nat)
  | reverse (n : Nat)
  deriving DecidableEq, Repr

/-- Stage of a cut in flight (R173). -/
inductive CutStage where
  | advancingToCut | blade
  deriving DecidableEq, Repr

/-- What a cut in flight was begun for: the pending cut, a CUT record in hand, the segment count or the take length
before a line's move, or FILM-OUT (R167, R168, R172). -/
inductive CutPurpose where
  | pending | record | segments | length | filmOut
  deriving DecidableEq, Repr

/-- The film transport (10, "Film state"). -/
structure Film where
  loaded : Bool
  length : Nat
  p : Nat
  hw : Nat
  cutpos : Nat
  take : List Segment
  takeUp : Bool
  doorClosed : Bool
  filmOut : Bool
  lowSent : Bool
  pendingCut : Bool
  move : Option FilmMove
  cut : Option (CutStage × CutPurpose)
  /-- Cut timer: stopped, or running with the time it was started with, in ms. -/
  cutTimer : Option Nat
  deriving DecidableEq, Repr

/-! ## Proof channel (11) -/

/-- Printer condition (R177). -/
inductive Printer where
  | ready | paperOut | fault
  deriving DecidableEq, Repr

/-- The proof channel (11, "Channel state"). The record in hand is the record BUSY for proof (R139). -/
structure ProofChannel where
  enable : Bool
  linesPerPage : Nat
  header : Bool
  marks : Bool
  printer : Printer
  /-- The character in flight. -/
  inFlight : Option Byte
  /-- The characters of the record in hand that follow the one in flight. -/
  rest : List Byte
  newPage : Bool
  last : Option (JobId × Desk × BitVec 16)
  page : Nat
  lines : Nat
  deriving DecidableEq, Repr

/-! ## Settings (12) -/

/-- The stored settings, by identifier in the table of R184. -/
structure Settings where
  deskLevel : Vector Nat 4
  silence : Nat
  storedMask : Vector (BitVec 11) 4
  fullReserve : Nat
  low : Nat
  high : Nat
  holdTime : Nat
  heldTimeout : Nat
  house : Format
  confirmTimeout : Nat
  retryLimit : Nat
  soak : Nat
  aref : Nat
  avgK : Nat
  weakThreshold : Nat
  failThreshold : Nat
  /-- In film counts, ten times the stored number (R185). -/
  maxTake : Nat
  cutMargin : Nat
  cutReserve : Nat
  reverseLimit : Nat
  /-- In feet. -/
  lowThreshold : Nat
  deriving DecidableEq, Repr

/-- Contents of the settings region: the numbers of identifiers 1 to 41, the descriptors, the width tables, the written
trims and bases (R184). -/
structure SettingsImage where
  values : Vector Int 41
  desc : Vector Descriptor 64
  tables : Vector WidthTable 24
  trims : Trims
  deriving DecidableEq, Repr

/-- Contents of the dictionary region: the count in use and the chains of every bucket, newest first (R184). -/
structure DictImage where
  count : Nat
  chains : Dictionary
  deriving DecidableEq, Repr

/-- The settings region of the serial memory: contents, sum word, check word (R184). -/
structure SettingsRegion where
  contents : SettingsImage
  sum : BitVec 16
  check : BitVec 16
  deriving DecidableEq, Repr

/-- The dictionary region of the serial memory (R184). -/
structure DictRegion where
  contents : DictImage
  sum : BitVec 16
  check : BitVec 16
  deriving DecidableEq, Repr

/-- A save in flight, with the contents copied when the SAVE was taken (R186). -/
inductive Save where
  | settings (image : SettingsImage)
  | dictionary (image : DictImage)
  deriving DecidableEq, Repr

/-- The serial memory and the save in flight. -/
structure SerialStore where
  settings : SettingsRegion
  dict : DictRegion
  save : Option Save
  deriving DecidableEq, Repr

/-! ## Mechanism port (09, "The mechanism port") -/

/-- Commands that leave on the mechanism port. Positions and lenses are indices (`Pos`, `Lens`). -/
inductive MechCommand where
  | turret (p : Pos)
  | lens (l : Lens)
  | lensHome
  | escape (drive : Nat)
  | flash (energy : Nat) (deflection : Int)
  | readStrip
  | positionLock (p : Pos)
  | positionUnlock (p : Pos)
  | mountCall (pos : Option Pos) (strip : Nat) (name : Name)
  | advance (n : Nat)
  | reverse (n : Nat)
  | blade
  deriving DecidableEq, Repr

end Sys2Proof.Machine
end

