-- ==== Sys2Proof/Config.lean ====
section
/-! DEFINITION. What the part fixes (sizes, house defaults, default settings), and the two free values: the byte layouts
of the stored regions, which the manual does not give. -/

namespace Sys2Proof.Config

open Sys2Proof.Machine

/-- The content bytes of a settings region. The manual says what the region holds (R184) and sums its bytes, but gives
no layout: a free value, UNVERIFIED (assumption 3). -/
opaque settingsBytes : SettingsImage → List Byte

/-- The content bytes of a dictionary region: a free value, UNVERIFIED (assumption 3). -/
opaque dictionaryBytes : DictImage → List Byte

/-- The point sizes of lenses 1 to 12 (table of R13). -/
def lensSizes : List Nat := [6, 7, 8, 9, 10, 12, 14, 18, 24, 30, 36, 48]

/-- Blocks in the galley store. -/
def blocks : Nat := 2048

/-- Bytes of a block. -/
def blockBytes : Nat := 32

/-- Most text bytes of a job (R43). -/
def maxText : Nat := 32768

/-- Most records a desk may own (R25). -/
def deskShare : Nat := 12

/-- Records of the line buffer (R134). -/
def bufferSize : Nat := 64

/-- Most elements of a line (R101). -/
def maxElements : Nat := 160

/-- Most segments of a take (R171). -/
def maxSegments : Nat := 16

/-- Most pending mount requests (R93). -/
def maxRequests : Nat := 8

/-- Most dictionary entries (R128). -/
def maxEntries : Nat := 1024

/-- Most frames of a link's outgoing queue (R24). -/
def queueSize : Nat := 16

/-- The queue length below which a NOTICE frame enters (R24). -/
def noticeRoom : Nat := 12

/-- Where 16-bit counters saturate (R21, R70, R127, R181). -/
def max16 : Nat := 65535

/-- Where the flash sequence stays (R92). -/
def max32 : Nat := 4294967295

/-- Film counts of a foot (00, "Units"). -/
def foot : Nat := 8640

/-- The cut timer, in ms (R173). -/
def cutTime : Nat := 2000

/-- The empty set of exceptions. -/
def noExc : ExcSet := ⟨false, false, false, false, false⟩

/-- Eight zero name bytes. -/
def noName : Name := Vector.replicate 8 0

/-- The house defaults of a settings region that is not valid (default column of R9). -/
def house : Format :=
  { font := 0, size := 10, leading := 110, measure := 2880, indent := 0, align := .justify, spMin := 8, spNorm := 12,
    spMax := 24, hyphenation := true, minBefore := 2, minAfter := 3, ladder := 3, mask := noExc,
    rounding := .nearestEven }

/-- The settings' defaults (table of R184). -/
def settings : Settings :=
  { deskLevel := #v[0, 2, 2, 2], silence := 20, storedMask := Vector.replicate 4 2047#11, fullReserve := 64, low := 256,
    high := 512, holdTime := 200, heldTimeout := 0, house := house, confirmTimeout := 400, retryLimit := 3, soak := 64,
    aref := 512, avgK := 4, weakThreshold := 300, failThreshold := 64, maxTake := 25920, cutMargin := 360,
    cutReserve := 720, reverseLimit := 2400, lowThreshold := 12 }

/-- Trims and bases of a settings region that is not valid (R147, R184). -/
def trims : Trims :=
  { lens := Vector.replicate 12 0, base := Vector.replicate 6 0, expo := Vector.replicate 12 128 }

/-- A directory of EMPTY descriptors and unloaded width tables (R78, R79). -/
def emptyDirectory : Directory :=
  { desc := Vector.replicate 64 (.empty noName), tables := Vector.replicate 24 ⟨Vector.replicate 96 0, false⟩ }

/-- A dictionary with no entry. -/
def emptyDictionary : Dictionary := Vector.replicate 256 []

end Sys2Proof.Config
end

