-- ==== Sys2Proof/Machine/State.lean ====
section
/-! DEFINITION. The controller's state, the reasons a step can stop, and the state right after reset. -/

namespace Sys2Proof.Machine

/-- Faults. The controller answers every command with a next state: no command of the manual stops the machine, so no
meaning raises a fault and there is none. -/
inductive Fault : Type where
  deriving DecidableEq, Repr

/-- Refusals. -/
inductive Refusal where
  /-- Raised by exec for a command that has no meaning yet; safe, since nothing is then claimed of the command. -/
  | notModelled (mnemonic : String)
  deriving DecidableEq, Repr

/-- The whole controller, and the queue of commands that wait. -/
structure State where
  links : Vector Link 4
  store : Store
  jobs : Vector Job 32
  queue : JobQueue
  dir : Directory
  mount : MountTable
  engine : Engine
  dict : Dictionary
  /-- Line records in composition order, oldest first (R134). -/
  buffer : List Record
  imaging : Imaging
  film : Film
  proof : ProofChannel
  settings : Settings
  serial : SerialStore
  /-- The commands sent on the mechanism port since start-up, oldest first. -/
  port : List MechCommand
  /-- The commands that wait, first in, first out. -/
  pending : List Instr
  deriving DecidableEq, Repr

/-- A link at start-up (02, "Link state"), with the stored mask of its desk. -/
def Link.start (mask : BitVec 11) : Link :=
  { rx := .hunt, spacing := false, kept := none, queue := [], sending := none, slot := none, hold := false,
    holdTimer := none, silenceTimer := none, flags := 0, mask := mask, badFrames := 0 }

/-- The galley store at start-up: every block free, in index order (R41). -/
def Store.start : Store := { cells := [], links := [], fresh := 0, returned := [] }

/-- A FREE job record (FREE column of R54). -/
def Job.free : Job :=
  { state := .free, owner := 0, tag := 0, level := 0, mode := .set, phase := .set, cls := .routine, cutAtEnd := false,
    test := .none, pattern := .none, firstBlock := none, lastBlock := none, bytes := 0, saved := none, composed := 0,
    exposed := 0, delivered := 0, proofed := 0, proofedHigh := 0, proofLost := 0, sticky := Config.noExc,
    reverseClamped := false, held := none, heldTimer := none, decisions := [], waitedFont := none, reason := .none,
    textSinceCut := false }

/-- The mount table at start-up (05, "The mount table"). -/
def MountTable.start : MountTable :=
  { pos := Vector.replicate 6 ⟨.empty, 0, 0⟩, flashSeq := 0, requests := [], waiting := [], panel := .clear }

/-- The engine at start-up (R97). -/
def Engine.start : Engine := { st := .idle, scanEnded := false, owed := none, work := none }

/-- The sequencer at the start of the turret scan: TURRET 1 has been sent and its confirm is awaited (R160). -/
def Imaging.start (t : Trims) (set : Settings) : Imaging :=
  { st := .starting, stop := .none, elem := 0, curPos := none, curLens := none, move := some (.turret 0), retry := 0,
    limit := set.retryLimit, confirmTimer := some set.confirmTimeout, stage := .scan, written := t, latched := t, a64 := 0, seedPending := true,
    soak := set.soak, lowRun := 0, weak := false, failCleared := false }

/-- The film transport at start-up (10, "Film state"). -/
def Film.start : Film :=
  { loaded := false, length := 0, p := 0, hw := 0, cutpos := 0, take := [], takeUp := false, doorClosed := false,
    filmOut := false, lowSent := false, pendingCut := false, move := none, cut := none, cutTimer := none }

/-- The proof channel at start-up (11, "Channel state"). -/
def ProofChannel.start : ProofChannel :=
  { enable := false, linesPerPage := 60, header := true, marks := true, printer := .fault, inFlight := none, rest := [],
    newPage := true, last := none, page := 0, lines := 0 }

/-- A serial memory that has never been saved: all words 0, so neither region is valid (R184); the contents of a region
that is not valid are never read (assumption 2). -/
def SerialStore.blank : SerialStore :=
  { settings := { contents := { values := Vector.replicate 41 0, desc := Config.emptyDirectory.desc,
                                tables := Config.emptyDirectory.tables, trims := Config.trims }, sum := 0, check := 0 }
    dict := { contents := { count := 0, chains := Config.emptyDictionary }, sum := 0, check := 0 }
    save := none }

/-- What start-up sends on the mechanism port before any event: the unlocks and the clear panel call of R85, then the
first command of the turret scan (R160). -/
def startUpCommands : List MechCommand :=
  [.positionUnlock 0, .positionUnlock 1, .positionUnlock 2, .positionUnlock 3, .positionUnlock 4, .positionUnlock 5,
   .mountCall none 0 Config.noName, .turret 0]

/-- The controller right after start-up with a serial memory that has never been saved (R187). -/
def State.reset : State :=
  { links := Vector.replicate 4 (Link.start 2047)
    store := Store.start
    jobs := Vector.replicate 32 Job.free
    queue := { entry := [], resume := none, rerun := [] }
    dir := Config.emptyDirectory
    mount := MountTable.start
    engine := Engine.start
    dict := Config.emptyDictionary
    buffer := []
    imaging := Imaging.start Config.trims Config.settings
    film := Film.start
    proof := ProofChannel.start
    settings := Config.settings
    serial := SerialStore.blank
    port := startUpCommands
    pending := [] }

end Sys2Proof.Machine
end

