-- ==== Sys2Proof/Machine/Operands.lean ====
section
/-! DEFINITION. How a request's payload and a reply's data are read and written as bytes (02: multi-byte numbers high
byte first, signed numbers two's complement), and the codes of the tables of 02. -/

namespace Sys2Proof.Machine

/-- The number two bytes spell, high byte first. -/
def nat2 (hi lo : Byte) : Nat := hi.toNat * 256 + lo.toNat

/-- The signed number two bytes spell. -/
def int2 (hi lo : Byte) : Int := if nat2 hi lo < 32768 then nat2 hi lo else (nat2 hi lo : Int) - 65536

/-- A number as two bytes, high byte first. -/
def be2 (n : Nat) : List Byte := [byteOf (n / 256), byteOf n]

/-- A number as three bytes, high byte first. -/
def be3 (n : Nat) : List Byte := [byteOf (n / 65536), byteOf (n / 256), byteOf n]

/-- A signed number as two bytes, two's complement. -/
def be2Int (i : Int) : List Byte := be2 (i % 65536).toNat

/-- The bytes of a 16-bit word, high byte first. -/
def beWord (w : BitVec 16) : List Byte := be2 w.toNat

/-- The 16-bit word two bytes spell. -/
def word2 (hi lo : Byte) : BitVec 16 := BitVec.ofNat 16 (nat2 hi lo)

/-- Whether every number of a list is below the one after it. -/
def increasing : List Nat → Bool
  | a :: b :: r => decide (a < b) && increasing (b :: r)
  | _ => true

/-- The eight bytes of a name field; a list that is not eight bytes long gives the zero name. -/
def nameOf (bs : List Byte) : Name :=
  match bs with
  | [a, b, c, d, e, f, g, h] => #v[a, b, c, d, e, f, g, h]
  | _ => Config.noName

/-- A byte below 32 as a job number, none above 31. -/
def jobOf (b : Byte) : Option JobId := if h : b.toNat < 32 then some ⟨b.toNat, h⟩ else none

/-- Mode codes of OPEN. -/
def modeOf : Nat → Option Mode
  | 0 => some .set
  | 1 => some .proofOnly
  | 2 => some .proofThenSet
  | 3 => some .setAndProof
  | _ => none

def Mode.code : Mode → Nat
  | .set => 0
  | .proofOnly => 1
  | .proofThenSet => 2
  | .setAndProof => 3

/-- Class codes of OPEN. -/
def classOf : Nat → Option JobClass
  | 0 => some .routine
  | 1 => some .priority
  | 2 => some .rush
  | _ => none

def JobClass.code : JobClass → Nat
  | .routine => 0
  | .priority => 1
  | .rush => 2

def Phase.code : Phase → Nat
  | .proof => 0
  | .set => 1

/-- State codes of QUERY-JOB (R39). -/
def JobState.code : JobState → Nat
  | .free => 0
  | .receiving => 1
  | .queued => 2
  | .composing => 3
  | .waitMount => 4
  | .held => 5
  | .awaitRelease => 6
  | .composed => 7
  | .cancelled => 8
  | .faulted => 9

/-- Reply codes. -/
def ReplyCode.code : ReplyCode → Nat
  | .ok => 0
  | .busy => 1
  | .full => 2
  | .limit => 3
  | .denied => 4
  | .noJob => 5
  | .badState => 6
  | .badValue => 7
  | .inUse => 8
  | .enabled => 9
  | .absent => 10
  | .unknown => 11

/-- Notice kinds, as the number of the flag's bit, which is the kind's code less 1. -/
def NoticeKind.bit : NoticeKind → Nat
  | .jobDelivered => 0
  | .proofDone => 1
  | .jobHeld => 2
  | .jobFaulted => 3
  | .jobAbandoned => 4
  | .mountWait => 5
  | .spoiled => 6
  | .filmLow => 7
  | .filmOut => 8
  | .imagingStopped => 9
  | .lampWeak => 10

/-- Job reason codes. -/
def JobReason.code : JobReason → Nat
  | .none => 0
  | .silence => 1
  | .linkReset => 2
  | .gap => 3
  | .overrun => 4
  | .oversize => 5
  | .cancel => 6
  | .codeError => 7
  | .fontRange => 8
  | .fontDenied => 9

/-- Stop reason codes. -/
def StopReason.code : StopReason → Nat
  | .none => 0
  | .noFilm => 1
  | .filmOut => 2
  | .gate => 3
  | .turretFault => 4
  | .lensFault => 5
  | .cutFault => 6
  | .stripLost => 7
  | .lampFail => 8

/-- Imaging state codes of QUERY-MACHINE (R38). -/
def ImgState.code : ImgState → Nat
  | .starting => 0
  | .stopped => 1
  | .idle => 2
  | .advancing => 3
  | .setting => 4
  | .cutting => 5

/-- Turret position state codes of QUERY-MACHINE (R38). -/
def PosState.code : PosState → Nat
  | .empty => 0
  | .mounted _ _ => 1
  | .unknown _ => 2
  | .duplicate _ => 3

/-- The type codes of DIR-WRITE and PROBE: 0 EMPTY, 1 TEXT, 2 DISPLAY, 3 PI, 4 GATE. -/
def kindCode : FontKind → Nat
  | .textFont => 1
  | .display => 2
  | .pi => 3

def Descriptor.code : Descriptor → Nat
  | .empty _ => 0
  | .font k .. => kindCode k
  | .gate .. => 4

def Descriptor.name : Descriptor → Name
  | .empty n => n
  | .font _ _ _ _ _ _ _ n => n
  | .gate _ _ _ _ n => n

/-- Exception codes of QUERY-JOB's held exception (R39). -/
def Exc.code : Exc → Nat
  | .loose => 1
  | .overset => 2
  | .ladder => 3
  | .nobreak => 4
  | .missing => 5

/-- The number of a position as the manual gives it, 1 to 6, or 0 for none. -/
def posNumber : Option Pos → Nat
  | none => 0
  | some p => p.val + 1

/-- Alignment codes (R16), above 3 taken as 3. -/
def alignOf : Nat → Alignment
  | 0 => .justify
  | 1 => .left
  | 2 => .right
  | _ => .center

def Alignment.code : Alignment → Nat
  | .justify => 0
  | .left => 1
  | .right => 2
  | .center => 3

/-- Rounding codes (R16), above 3 taken as 3. -/
def roundingOf : Nat → Rounding
  | 0 => .nearestEven
  | 1 => .nearestUp
  | 2 => .down
  | _ => .up

def Rounding.code : Rounding → Nat
  | .nearestEven => 0
  | .nearestUp => 1
  | .down => 2
  | .up => 3

/-- The decimal digits of a number, as characters 0x30 to 0x39, at most `fuel` of them. -/
def decimalDigits : Nat → Nat → List Byte
  | 0, _ => []
  | fuel + 1, n => (if n < 10 then [] else decimalDigits fuel (n / 10)) ++ [byteOf (48 + n % 10)]

/-- A number in decimal, as characters. Seven digits hold every number the controller prints. -/
def decimal (n : Nat) : List Byte := decimalDigits 7 n

/-- A number in decimal, right-aligned in `width` columns. -/
def decimalRight (width n : Nat) : List Byte :=
  List.replicate (width - (decimal n).length) 0x20 ++ decimal n

/-- A number below 100 as two digits. -/
def twoDigits (n : Nat) : List Byte := [byteOf (48 + n / 10 % 10), byteOf (48 + n % 10)]

end Sys2Proof.Machine
end

