-- ==== Sys2Proof/Machine/Flags.lean ====
section
/-! DEFINITION. Flag sets: the exceptions of a mask, of a line's marks and of a job's sticky flags (R19, R103), the
notice flags and enable masks of a link (R30, R37), and counters that saturate. -/

namespace Sys2Proof.Machine

/-- Whether a set holds an exception. -/
def ExcSet.has (s : ExcSet) : Exc → Bool
  | .loose => s.l
  | .overset => s.o
  | .ladder => s.h
  | .nobreak => s.n
  | .missing => s.m

/-- A set with an exception added. -/
def ExcSet.add (s : ExcSet) : Exc → ExcSet
  | .loose => { s with l := true }
  | .overset => { s with o := true }
  | .ladder => { s with h := true }
  | .nobreak => { s with n := true }
  | .missing => { s with m := true }

/-- The union of two sets. -/
def ExcSet.union (s t : ExcSet) : ExcSet := ⟨s.l || t.l, s.o || t.o, s.h || t.h, s.n || t.n, s.m || t.m⟩

/-- Bits 0 to 4 stand for L, O, H, N, M (R39, R184). -/
def ExcSet.bits (s : ExcSet) : Nat :=
  s.l.toNat + 2 * s.o.toNat + 4 * s.h.toNat + 8 * s.n.toNat + 16 * s.m.toNat

/-- The set a number's bits 0 to 4 stand for. -/
def ExcSet.ofBits (n : Nat) : ExcSet := ⟨n.testBit 0, n.testBit 1, n.testBit 2, n.testBit 3, n.testBit 4⟩

/-- The sticky flags byte of QUERY-JOB: bits 0 to 4 L, O, H, N, M, bit 5 REVERSE-CLAMPED (R39). -/
def Job.stickyByte (j : Job) : Nat := j.sticky.bits + 32 * j.reverseClamped.toNat

/-- Whether a notice kind is enabled in a mask. -/
def noticeEnabled (mask : BitVec 11) (k : NoticeKind) : Bool := mask.getLsbD k.bit

/-- Flags with the flag of a kind set. -/
def setNotice (flags : BitVec 11) (k : NoticeKind) : BitVec 11 := flags ||| BitVec.ofNat 11 (2 ^ k.bit)

/-- The mask a request carries: bits 11 to 15 are ignored and kept as 0 (R30). -/
def maskOf (w : BitVec 16) : BitVec 11 := w.setWidth 11

/-- One more, staying at a limit. -/
def satSucc (limit n : Nat) : Nat := if n < limit then n + 1 else n

/-- A sum, staying at 65,535 (R70). -/
def satAdd (n k : Nat) : Nat := min Config.max16 (n + k)

/-- The entry of a decision list for one kind (R67). -/
def Decision.get (d : Decision) : Exc → Option Action
  | .loose => d.l
  | .overset => d.o
  | .ladder => d.h
  | .nobreak => d.n
  | .missing => d.m

/-- A decision for one kind set or removed. -/
def Decision.put (d : Decision) (k : Exc) (a : Option Action) : Decision :=
  match k with
  | .loose => { d with l := a }
  | .overset => { d with o := a }
  | .ladder => { d with h := a }
  | .nobreak => { d with n := a }
  | .missing => { d with m := a }

/-- An entry with no decision. -/
def Decision.bare (line : Nat) : Decision := ⟨line, none, none, none, none, none⟩

/-- Whether an entry holds no decision. -/
def Decision.isBare (d : Decision) : Bool :=
  d.l.isNone && d.o.isNone && d.h.isNone && d.n.isNone && d.m.isNone

/-- An entry with only the decisions whose kinds a set holds (R67: the decisions applied stay). -/
def Decision.keep (d : Decision) (s : ExcSet) : Decision :=
  { d with
    l := if s.l then d.l else none
    o := if s.o then d.o else none
    h := if s.h then d.h else none
    n := if s.n then d.n else none
    m := if s.m then d.m else none }

end Sys2Proof.Machine
end

