-- ==== Sys2Proof/Machine/Ops.lean ====
section
/-! DEFINITION. The shared operations over the state: updating a link, a job, a position; sending on the mechanism port;
the outgoing side of a link (R24), replies (R22), notices (R37), flow control at the links (R31). -/

namespace Sys2Proof.Machine

/-- A vector with one entry replaced. -/
def put {α : Type} {n : Nat} (v : Vector α n) (i : Fin n) (a : α) : Vector α n := v.set i.val a i.isLt

/-- The four desks, in order. -/
def allDesks : List Desk := [0, 1, 2, 3]

/-- The thirty-two job numbers, in order. -/
def allJobs : List JobId := List.finRange 32

/-- The six turret positions, in order. -/
def allPositions : List Pos := [0, 1, 2, 3, 4, 5]

def State.modLink (d : Desk) (f : Link → Link) (s : State) : State :=
  { s with links := put s.links d (f s.links[d]) }

/-- The same change made on each of the four links. -/
def State.modLinks (f : Link → Link) (s : State) : State :=
  { s with links := #v[f s.links[0], f s.links[1], f s.links[2], f s.links[3]] }

def State.modJob (j : JobId) (f : Job → Job) (s : State) : State :=
  { s with jobs := put s.jobs j (f s.jobs[j]) }

/-- A command sent on the mechanism port. -/
def State.send (c : MechCommand) (s : State) : State := { s with port := s.port ++ [c] }

/-! ## Frames as bytes (02, "The frame envelope") -/

/-- The sum of bytes, modulo 256. -/
def sumBytes (bs : List Byte) : Byte := bs.foldl (· + ·) 0

/-- The check byte of a frame: the sum of the length, type, payload and check bytes is 0 modulo 256 (R21, R24). -/
def checkByte (type : Byte) (payload : List Byte) : Byte :=
  0 - (byteOf (payload.length + 1) + sumBytes (type :: payload))

/-- The bytes of a frame: lead, length, type, payload, check byte. -/
def envelope (type : Byte) (payload : List Byte) : List Byte :=
  [0xA5, byteOf (payload.length + 1), type] ++ payload ++ [checkByte type payload]

/-! ## The outgoing side of a link (R24) -/

/-- A frame as sent, its check byte computed by the controller. -/
def Frame.bytes (f : Frame) : List Byte := envelope f.type f.payload

/-- The frame a flow-control slot holds, as sent: HOLD with its time, or RESUME. -/
def FlowFrame.frame : FlowFrame → Frame
  | .hold t => ⟨0x81, be2 t⟩
  | .resume => ⟨0x82, []⟩

/-- A free transmitter begins the frame in the flow-control slot, or else the head of the queue, which leaves the queue
then, each with its check byte; a busy one goes on (R24). -/
def Link.kick (l : Link) : Link :=
  match l.sending, l.slot, l.queue with
  | some _, _, _ => l
  | none, some f, _ => { l with slot := none, sending := some f.frame.bytes }
  | none, none, f :: r => { l with queue := r, sending := some f.bytes }
  | none, none, [] => l

/-- A frame enters the queue at its tail. -/
def Link.enqueue (f : Frame) (l : Link) : Link := { l with queue := l.queue ++ [f] }.kick

/-- A flow-control frame is placed in the slot, replacing one not yet begun. -/
def Link.place (f : FlowFrame) (l : Link) : Link := { l with slot := some f }.kick

/-- The transmitter finishes its frame and begins the next. -/
def Link.sent (l : Link) : Link := { l with sending := none }.kick

/-- The REPLY frame to a request of a type. -/
def replyFrame (type : Byte) (c : ReplyCode) (data : List Byte) : Frame :=
  ⟨0x80, type :: byteOf c.code :: data⟩

/-- A reply is queued for a desk (R22, R24). -/
def State.reply (d : Desk) (type : Byte) (c : ReplyCode) (data : List Byte) (s : State) : State :=
  s.modLink d (Link.enqueue (replyFrame type c data))

/-- The NOTICE frame of an event; the job byte is 0xFF where no job is concerned. -/
def noticeFrame (k : NoticeKind) (job : Option JobId) (detail : Nat) : Frame :=
  ⟨0x83, byteOf (k.bit + 1) :: byteOf (match job with | some j => j.val | none => 255) :: be2 detail⟩

/-- A notice raised on a link: its flag is set, and a NOTICE frame is queued if the kind is enabled and the queue holds
fewer than 12 frames (R37). -/
def Link.notice (k : NoticeKind) (job : Option JobId) (detail : Nat) (l : Link) : Link :=
  let l1 := { l with flags := setNotice l.flags k }
  if noticeEnabled l.mask k && decide (l.queue.length < Config.noticeRoom) then
    l1.enqueue (noticeFrame k job detail)
  else l1

/-- A notice for the desk that owns a job. -/
def State.notice (d : Desk) (k : NoticeKind) (job : JobId) (detail : Nat) (s : State) : State :=
  s.modLink d (Link.notice k (some job) detail)

/-- A notice for all desks, raised on each of the four links. -/
def State.noticeAll (k : NoticeKind) (detail : Nat) (s : State) : State :=
  s.modLinks (Link.notice k none detail)

/-! ## Flow control at the links (R31) -/

/-- A link takes a decision to HOLD: if it is out of hold it sets its hold flag, starts its timer with the hold time and
places a HOLD frame; in hold already, it ignores it. -/
def Link.takeHold (time : Nat) (l : Link) : Link :=
  if l.hold then l else { l with hold := true, holdTimer := some time }.place (.hold time)

/-- A link takes a decision to RESUME: if it is in hold it leaves hold, stops its timer and places a RESUME frame. -/
def Link.takeResume (l : Link) : Link :=
  if l.hold then { l with hold := false, holdTimer := none }.place .resume else l

def State.decideHold (s : State) : State := s.modLinks (Link.takeHold s.settings.holdTime)

def State.decideResume (s : State) : State := s.modLinks Link.takeResume

/-! ## Cells kept sparsely

A list of (address, value) pairs with addresses strictly rising and no entry equal to what an unlisted address reads as.
The galley store's bytes and its next-links are held so. -/

/-- What an address reads as. -/
def sparseRead {α : Type} (dflt : Nat → α) : List (Nat × α) → Nat → α
  | [], k => dflt k
  | (a, v) :: r, k => if k < a then dflt k else if a = k then v else sparseRead dflt r k

/-- The list after a write; a value equal to what an unlisted address reads as removes the entry. -/
def sparseWrite {α : Type} [DecidableEq α] (dflt : Nat → α) : List (Nat × α) → Nat → α → List (Nat × α)
  | [], k, v => if v = dflt k then [] else [(k, v)]
  | (a, w) :: r, k, v =>
    if k < a then if v = dflt k then (a, w) :: r else (k, v) :: (a, w) :: r
    else if a = k then if v = dflt k then r else (k, v) :: r
    else (a, w) :: sparseWrite dflt r k v

/-- The canonical form. -/
def sparseWf {α : Type} [DecidableEq α] (dflt : Nat → α) : List (Nat × α) → Bool
  | [] => true
  | (a, v) :: r => decide (v ≠ dflt a) && r.all (fun e => decide (a < e.1)) && sparseWf dflt r

/-- What a byte of the galley store reads as before anything is written there: 0, DESIGN CHOICE (assumption 4: the
manual leaves it undefined, and no command reads it). -/
def Memory.unlisted (_ : Nat) : Byte := 0

/-- The byte of the galley store at an address. -/
def Memory.read (m : List Host.Cell) (a : Nat) : Byte := sparseRead Memory.unlisted m a

/-- The galley store's bytes after one is written. -/
def Memory.write (m : List Host.Cell) (a : Nat) (b : Byte) : List Host.Cell := sparseWrite Memory.unlisted m a b

/-- The galley store's bytes are in canonical form. -/
def Memory.wf (m : List Host.Cell) : Bool := sparseWf Memory.unlisted m

end Sys2Proof.Machine
end

