-- ==== Sys2Proof/Machine/Galley.lean ====
section
/-! DEFINITION. The galley store (03): blocks, free list and chains (R40, R41), reading and appending text (R42 to R44),
freeing a record with its chain (R46), abandonment (R45) and the flow-control decisions (R48 to R51). -/

namespace Sys2Proof.Machine

/-! ## Blocks and the free list -/

/-- The next-link of a block at start-up (03, "Store state"). -/
def startLink (b : Nat) : Option Nat := if b + 1 < Config.blocks then some (b + 1) else none

/-- The next-link of a block. -/
def Store.next (st : Store) (b : Nat) : Option Nat := sparseRead startLink st.links b

def Store.setNext (b : Nat) (n : Option Nat) (st : Store) : Store :=
  { st with links := sparseWrite startLink st.links b n }

/-- The free list, from head to tail (R41). -/
def Store.freeList (st : Store) : List Nat := List.range' st.fresh (Config.blocks - st.fresh) ++ st.returned

/-- The free count: the length of the free list. -/
def Store.freeCount (st : Store) : Nat := (Config.blocks - st.fresh) + st.returned.length

/-- The tail of the free list. -/
def Store.freeTail (st : Store) : Option Nat :=
  match st.returned.getLast? with
  | some b => some b
  | none => if st.fresh < Config.blocks then some (Config.blocks - 1) else none

/-- A block removed from the head of the free list. -/
def Store.allocate (st : Store) : Option (Nat × Store) :=
  if st.fresh < Config.blocks then some (st.fresh, { st with fresh := st.fresh + 1 })
  else
    match st.returned with
    | [] => none
    | b :: r => some (b, { st with returned := r })

/-- A block joins the tail of the free list, and the next-links follow (R41). -/
def Store.joinFree (st : Store) (b : Nat) : Store :=
  let linked :=
    match st.freeTail with
    | some t => st.setNext t (some b)
    | none => st
  { linked.setNext b none with returned := st.returned ++ [b] }

/-! ## Chains (R40) -/

/-- The blocks met from one on, along the next-links, at most `n` of them. -/
def Store.walk (st : Store) : Nat → Option Nat → List Nat
  | 0, _ => []
  | _, none => []
  | n + 1, some b => b :: st.walk n (st.next b)

/-- Blocks that a byte count needs. -/
def blocksFor (bytes : Nat) : Nat := (bytes + 31) / Config.blockBytes

/-- The chain of a job, from its first block. -/
def chainOf (st : Store) (j : Job) : List Nat := st.walk (blocksFor j.bytes) j.firstBlock

/-- The bytes of one block. -/
def Store.blockText (st : Store) (b : Nat) : List Byte :=
  (List.range Config.blockBytes).map fun i => Memory.read st.cells (Config.blockBytes * b + i)

/-- The text of a job: byte `b` of it is at place `b mod 32` of block `b / 32` of the chain (R40, R42). -/
def storedText (st : Store) (j : Job) : List Byte := ((chainOf st j).flatMap st.blockText).take j.bytes

/-- A chain freed: its blocks join the tail of the free list in chain order (R41). -/
def Store.freeBlocks (st : Store) (blocks : List Nat) : Store := blocks.foldl Store.joinFree st

/-! ## Appending (R43, R44) -/

/-- One byte appended to a job: into the room of its last block, or into a block newly taken from the free list. The
checks of R43 are made before, so a block is always found. -/
def appendByte (p : Store × Job) (b : Byte) : Store × Job :=
  let (st, j) := p
  let place := j.bytes % Config.blockBytes
  if place = 0 then
    match st.allocate with
    | none => (st, j)
    | some (k, st1) =>
      let st2 := st1.setNext k none
      let st3 := match j.lastBlock with
        | some l => st2.setNext l (some k)
        | none => st2
      ({ st3 with cells := Memory.write st3.cells (Config.blockBytes * k) b },
        { j with firstBlock := j.firstBlock.orElse (fun _ => some k), lastBlock := some k, bytes := j.bytes + 1 })
  else
    match j.lastBlock with
    | none => (st, j)
    | some l =>
      ({ st with cells := Memory.write st.cells (Config.blockBytes * l + place) b }, { j with bytes := j.bytes + 1 })

/-- The new blocks an append of `n` bytes needs (R43, check 3). -/
def blocksNeeded (bytes n : Nat) : Nat := blocksFor (bytes + n) - blocksFor bytes

/-- All bytes of a TEXT frame appended to a job's record and chain. -/
def appendText (j : JobId) (bytes : List Byte) (s : State) : State :=
  let r := bytes.foldl appendByte (s.store, s.jobs[j])
  { s with store := r.1 }.modJob j (fun _ => r.2)

/-! ## Flow-control decisions -/

/-- After blocks are allocated: HOLD if the free count is below LOW (R48). -/
def flowAfterTaking (s : State) : State := if s.store.freeCount < s.settings.low then s.decideHold else s

/-- After blocks are freed: RESUME if the free count is HIGH or more (R49). -/
def flowAfterFreeing (s : State) : State := if s.settings.high ≤ s.store.freeCount then s.decideResume else s

/-- The decision of R49 at the end of an event, made if the event freed blocks: one decision after the last record it
frees (R46). `before` is the free count before the event. -/
def flowIfFreed (before : Nat) (s : State) : State := if before < s.store.freeCount then flowAfterFreeing s else s

/-- After a write of a threshold: both comparisons (R51). -/
def flowAfterWrite (s : State) : State :=
  if s.store.freeCount < s.settings.low then s.decideHold
  else if s.settings.high ≤ s.store.freeCount then s.decideResume
  else s

/-! ## Freeing a record (R46, R54, R56, R71) -/

/-- The chain of a job's record returns to the free list. -/
def releaseChain (j : JobId) (s : State) : State :=
  { s with store := s.store.freeBlocks (chainOf s.store s.jobs[j]) }

/-- A record becomes FREE: its chain is freed, every field returns to its FREE value, and it leaves the entry list, the
resume slot and the rerun list. -/
def freeJob (j : JobId) (s : State) : State :=
  let s1 := (releaseChain j s).modJob j (fun _ => Job.free)
  { s1 with queue :=
      { entry := s1.queue.entry.filter (· ≠ j)
        resume := if s1.queue.resume = some j then none else s1.queue.resume
        rerun := s1.queue.rerun.filter (· ≠ j) } }

/-! ## Abandonment (R45) -/

/-- The RECEIVING job of a desk, if it owns one. -/
def receivingJob (d : Desk) (s : State) : Option JobId :=
  allJobs.find? fun j => decide (s.jobs[j].state = .receiving ∧ s.jobs[j].owner = d)

/-- A RECEIVING job of a desk is abandoned: its chain and record are freed, the desk's silence timer stops, JOB-ABANDONED
is raised for every reason but CANCEL, and the decision of R49 follows. -/
def abandon (d : Desk) (j : JobId) (reason : JobReason) (s : State) : State :=
  let s1 := (freeJob j s).modLink d (fun l => { l with silenceTimer := none })
  let s2 := if reason = .cancel then s1 else s1.notice d .jobAbandoned j reason.code
  flowIfFreed s.store.freeCount s2

/-- The RECEIVING job of a desk, if any, is abandoned. -/
def abandonReceiving (d : Desk) (reason : JobReason) (s : State) : State :=
  match receivingJob d s with
  | some j => abandon d j reason s
  | none => s

end Sys2Proof.Machine
end

