-- ==== Sys2Proof/Machine/Queue.lean ====
section
/-! DEFINITION. The job queue (04): due-ness of a job's lines, selection (R58, R59) and the engine's states between
builds (R97), decisions (R65 to R67), counts, completion and freeing (R70, R71, R75). -/

namespace Sys2Proof.Machine

/-! ## What a job's lines are due for (R55) -/

/-- The job's lines are imaging-due: SET and SET-AND-PROOF work, and PROOF-THEN-SET work in phase SET. -/
def Job.imagingDue (j : Job) : Bool :=
  match j.mode with
  | .set => true
  | .setAndProof => true
  | .proofOnly => false
  | .proofThenSet => decide (j.phase = .set)

/-- The phase a record takes at OPEN: PROOF for PROOF-THEN-SET, SET for every other mode (R55). -/
def Mode.firstPhase : Mode → Phase
  | .proofThenSet => .proof
  | _ => .set

/-! ## Lookup -/

/-- The COMPOSING job, if there is one. -/
def composingJob (s : State) : Option JobId := allJobs.find? fun j => decide (s.jobs[j].state = .composing)

/-- The lowest-numbered FREE record. -/
def freeRecord (s : State) : Option JobId := allJobs.find? fun j => decide (s.jobs[j].state = .free)

/-- Records in use. -/
def inUse (s : State) : Nat := allJobs.countP fun j => decide (s.jobs[j].state ≠ .free)

/-- Records a desk owns that are not FREE. -/
def ownedBy (d : Desk) (s : State) : Nat :=
  allJobs.countP fun j => decide (s.jobs[j].state ≠ .free ∧ s.jobs[j].owner = d)

/-- A job appended at the tail of the entry list (R56). -/
def enterTail (j : JobId) (s : State) : State :=
  { s with queue := { s.queue with entry := s.queue.entry ++ [j] } }

/-! ## Selection (R58, R59) -/

/-- The first job of a list that is QUEUED and of a kind. -/
def firstQueued (s : State) (p : Job → Bool) (js : List JobId) : Option JobId :=
  js.find? fun j => decide (s.jobs[j].state = .queued) && p s.jobs[j]

/-- The job selected: the first tier of R58 that holds a QUEUED job gives it. -/
def nextJob (s : State) : Option JobId :=
  let rush (j : Job) : Bool := decide (j.cls = .rush)
  (firstQueued s rush s.queue.rerun).or <|
  (firstQueued s rush s.queue.entry).or <|
  (firstQueued s (fun _ => true) s.queue.resume.toList).or <|
  (firstQueued s (fun j => !rush j) s.queue.rerun).or <|
  (firstQueued s (fun j => decide (j.cls = .priority)) s.queue.entry).or <|
  firstQueued s (fun j => decide (j.cls = .routine)) s.queue.entry

/-- The house-default context: text offset 0, line 1, no pending move, no hyphens (R9). -/
def freshContext (s : State) : Context :=
  { fmt := s.settings.house, pendingV := 0, hyphens := 0, offset := 0, line := 1 }

/-- WAIT-BUFFER while the line buffer holds 64 records, RUNNING otherwise (R97). -/
def bufferState (s : State) : EngineState :=
  if s.buffer.length < Config.bufferSize then .running else .waitBuffer

/-- The state the engine enters with a job (R97). -/
def entryState (j : JobId) (s : State) : EngineState :=
  if s.jobs[j].imagingDue && !s.engine.scanEnded then .waitScan else bufferState s

/-- A job is selected (R59): it becomes COMPOSING, leaves the resume slot and the rerun list, and the engine takes its
saved context, or the house defaults where it has none. -/
def selectJob (j : JobId) (s : State) : State :=
  let ctx := s.jobs[j].saved.getD (freshContext s)
  let s1 := s.modJob j fun r => { r with state := .composing, saved := some ctx }
  { s1 with
    queue := { s1.queue with
      resume := if s1.queue.resume = some j then none else s1.queue.resume
      rerun := s1.queue.rerun.filter (· ≠ j) }
    engine := { s1.engine with st := entryState j s, owed := none, work := some ctx } }

/-- Selection, where the engine has no job and a job is QUEUED (R58). -/
def trySelect (s : State) : State :=
  match composingJob s with
  | some _ => s
  | none =>
    match nextJob s with
    | some j => selectJob j s
    | none => s

/-- The engine without a job: IDLE, no working context, no owed CUT record (R97). -/
def idleEngine (s : State) : State :=
  { s with engine := { s.engine with st := .idle, owed := none, work := none } }

/-- The engine passes on when the buffer has room or the scan has ended, and waits when the buffer is full (R97). -/
def refreshEngine (s : State) : State :=
  match s.engine.st with
  | .idle => s
  | .waitScan => if s.engine.scanEnded then { s with engine := { s.engine with st := bufferState s } } else s
  | _ => { s with engine := { s.engine with st := bufferState s } }

/-- A job leaves COMPOSING for another state, and the engine becomes IDLE (R97). -/
def stopComposing (j : JobId) (f : Job → Job) (s : State) : State := idleEngine (s.modJob j f)

/-! ## Decisions (R65 to R67) -/

/-- An entry inserted in line-number order. -/
def insertDecision (e : Decision) : List Decision → List Decision
  | [] => [e]
  | d :: r => if e.line < d.line then e :: d :: r else d :: insertDecision e r

/-- A decision recorded for a line and a kind: it joins the line's entry, or a new entry is inserted, the entry with the
lowest line number being removed first where the list holds eight (R67). -/
def recordDecision (line : Nat) (k : Exc) (a : Action) (ds : List Decision) : List Decision :=
  if ds.any (fun d => d.line = line) then ds.map fun d => if d.line = line then d.put k (some a) else d
  else
    let room := if ds.length < 8 then ds else ds.drop 1
    insertDecision ((Decision.bare line).put k (some a)) room

/-- The decision a job's list holds for a kind on a line. -/
def decisionFor (j : Job) (line : Nat) (k : Exc) : Option Action :=
  (j.decisions.find? fun d => d.line = line).bind fun d => d.get k

/-- When a line's record is appended: its decisions not applied in building it are removed, and an entry left with none
is removed (R67). -/
def dropUnapplied (line : Nat) (applied : ExcSet) (ds : List Decision) : List Decision :=
  (ds.map fun d => if d.line = line then d.keep applied else d).filter fun d => !(decide (d.line = line) && d.isBare)

/-- Whether an action is valid for a held exception (table of R65). -/
def actionValid (h : HeldRecord) : Action → Bool
  | .proposed => true
  | .default => true
  | .ragged => decide (h.kind ≠ .missing)
  | .breakBefore k => decide (h.kind ≠ .missing ∧ 2 ≤ k ∧ k ≤ h.words)

/-- A held job decided: the action is recorded under the held line and exception, the held record becomes absent, the
timer stops and the job becomes QUEUED (R65). -/
def decideHeld (j : JobId) (h : HeldRecord) (a : Action) (s : State) : State :=
  s.modJob j fun r =>
    { r with state := .queued, held := none, heldTimer := none,
             decisions := recordDecision h.line h.kind a r.decisions }

/-! ## Completion and freeing (R71, R75) -/

/-- A record of the job is in the line buffer. -/
def inBuffer (j : JobId) (s : State) : Bool := s.buffer.any fun r => r.job = j

/-- A line of the job is in the take list. -/
def inTake (j : JobId) (s : State) : Bool := s.film.take.any fun g => g.job = j

/-- Whether a COMPOSED job is complete (table of R71). -/
def isComplete (j : JobId) (s : State) : Bool :=
  let r := s.jobs[j]
  !inBuffer j s && if r.imagingDue then decide (r.delivered = r.composed) else decide (r.proofed = r.composed)

/-- The completion check of a COMPOSED job (R71) and the freeing check of a CANCELLED or FAULTED one (R75). -/
def checkJob (j : JobId) (s : State) : State :=
  let r := s.jobs[j]
  match r.state with
  | .composed =>
    if isComplete j s then
      if r.imagingDue then freeJob j (s.notice r.owner .jobDelivered j r.delivered)
      else
        let s1 := s.notice r.owner .proofDone j r.proofed
        if r.mode = .proofThenSet then s1.modJob j (fun q => { q with state := .awaitRelease }) else freeJob j s1
    else s
  | .cancelled => if inBuffer j s || inTake j s then s else freeJob j s
  | .faulted => if inBuffer j s || inTake j s then s else freeJob j s
  | _ => s

/-- The checks of several jobs, in order. -/
def checkJobs (js : List JobId) (s : State) : State := js.foldl (fun t j => checkJob j t) s

end Sys2Proof.Machine
end

