-- ==== Sys2Proof/Machine/Fonts.lean ====
section
/-! DEFINITION. Fonts and the mount table (05): directory and width-table lookup, the access checks (R80, R81), pins
(R91), strip classification (R86 to R89), waiters and mount requests (R93, R95), suggestions and the panel call (R94). -/

namespace Sys2Proof.Machine

/-! ## Lookup -/

/-- Descriptor `n`, none above 63. -/
def descAt (s : State) (n : Nat) : Option Descriptor := if h : n < 64 then some s.dir.desc[n] else none

/-- Width table `t`; a number above 23 gives an unloaded table. -/
def tableAt (s : State) (t : Nat) : WidthTable :=
  if h : t < 24 then s.dir.tables[t] else ⟨Vector.replicate 96 0, false⟩

/-- The entry of a table for a code 0x20 to 0x7F, 0 for any other. -/
def WidthTable.entry (t : WidthTable) (code : Byte) : Nat :=
  let c := code.toNat
  if h : 32 ≤ c ∧ c < 128 then t.widths[c - 32] else 0

/-- The width entry of a code in a font's table, 0 where the number is no font. -/
def fontWidth (s : State) (font : Nat) (code : Byte) : Nat :=
  match descAt s font with
  | some (.font _ _ _ t _ _ _ _) => (tableAt s t).entry code
  | _ => 0

/-- The substitute glyph of a font (R104). -/
def fontSubstitute (s : State) (font : Nat) : Byte :=
  match descAt s font with
  | some (.font _ _ _ _ _ g _ _) => byteOf g
  | _ => 0

/-- The density of a font (R152). -/
def fontDensity (s : State) (font : Nat) : Nat :=
  match descAt s font with
  | some (.font _ _ _ _ g _ _ _) => g
  | _ => 0

/-- The strip code of a font. -/
def fontStrip (s : State) (font : Nat) : Nat :=
  match descAt s font with
  | some (.font _ _ c _ _ _ _ _) => c
  | _ => 0

/-- The font is of type TEXT (R105). -/
def isTextFont (s : State) (font : Nat) : Bool :=
  match descAt s font with
  | some (.font .textFont ..) => true
  | _ => false

/-- The font is of type TEXT and its descriptor has hyphenate yes (R118). -/
def mayHyphenate (s : State) (font : Nat) : Bool :=
  match descAt s font with
  | some (.font .textFont _ _ _ _ _ h _) => h
  | _ => false

/-- The name bytes of a descriptor number. -/
def nameAt (s : State) (n : Nat) : Name :=
  match descAt s n with
  | some d => d.name
  | none => Config.noName

/-- The font descriptor that holds a strip code; at most one does (R78). -/
def fontOfStrip (s : State) (c : Nat) : Option Nat :=
  (List.range 64).find? fun n =>
    match descAt s n with
    | some (.font _ _ k _ _ _ _ _) => decide (k = c)
    | _ => false

/-- The font that stands MOUNTED at a position. -/
def Position.font (p : Position) : Option Nat :=
  match p.st with
  | .mounted f _ => some f
  | _ => none

/-- The position at which a font stands MOUNTED. -/
def mountedAt (s : State) (font : Nat) : Option Pos :=
  allPositions.find? fun p => decide (s.mount.pos[p].font = some font)

/-- The font is MOUNTED at some position (R85). -/
def isMounted (s : State) (font : Nat) : Bool := (mountedAt s font).isSome

/-! ## The access checks -/

/-- Result of an access check: the resolved font with the size and leading of the gate it was reached through, a fault,
or the font to wait for (R80). -/
inductive Access where
  | pass (font : Nat) (size leading : Option Nat)
  | fontRange
  | fontDenied
  | wait (font : Nat)
  deriving DecidableEq, Repr

/-- Test 4: the resolved font's width table is loaded. -/
def tableTest (s : State) (font : Nat) (size leading : Option Nat) : Access :=
  match descAt s font with
  | some (.font _ _ _ t _ _ _ _) => if (tableAt s t).loaded then .pass font size leading else .fontRange
  | _ => .fontRange

/-- Tests 1 to 4 of R80 for descriptor `n` and a level. -/
def accessTests (s : State) (n level : Nat) : Access :=
  match descAt s n with
  | none => .fontRange
  | some (.empty _) => .fontRange
  | some (.gate lv target size leading _) =>
    if lv < level then .fontDenied else tableTest s target size leading
  | some (.font _ lv ..) => if lv < level then .fontDenied else tableTest s n none none

/-- Test 5 of R80, for imaging-due composition. -/
def mountTest (s : State) (imagingDue : Bool) (a : Access) : Access :=
  match a with
  | .pass font .. => if imagingDue && !isMounted s font then .wait font else a
  | _ => a

/-- The font access check of R80. -/
def accessCheck (s : State) (n level : Nat) (imagingDue : Bool) : Access :=
  mountTest s imagingDue (accessTests s n level)

/-- Some GATE of the directory targets the font and is at a level the job may use (R81, test 2). -/
def gateReaches (s : State) (font level : Nat) : Bool :=
  (List.range 64).any fun n =>
    match descAt s n with
    | some (.gate lv target _ _ _) => decide (target = font ∧ level ≤ lv)
    | _ => false

/-- The line-start check of R81. -/
def lineStartCheck (s : State) (font level : Nat) (imagingDue : Bool) : Access :=
  match descAt s font with
  | some (.font _ lv ..) =>
    if level ≤ lv ∨ gateReaches s font level = true then mountTest s imagingDue (tableTest s font none none)
    else .fontDenied
  | _ => .fontRange

/-! ## Positions and pins -/

def State.modPos (p : Pos) (f : Position → Position) (s : State) : State :=
  { s with mount := { s.mount with pos := put s.mount.pos p (f s.mount.pos[p]) } }

/-- A pin added to a position; POSITION-LOCK when the count rises from 0 (R91). -/
def pin (p : Pos) (s : State) : State :=
  let n := s.mount.pos[p].pins
  let s1 := s.modPos p fun q => { q with pins := n + 1 }
  if n = 0 then s1.send (.positionLock p) else s1

/-- A pin taken from a position; POSITION-UNLOCK when the count falls to 0 (R91). -/
def unpin (p : Pos) (s : State) : State :=
  let n := s.mount.pos[p].pins
  if n = 0 then s
  else
    let s1 := s.modPos p fun q => { q with pins := n - 1 }
    if n = 1 then s1.send (.positionUnlock p) else s1

/-- A flash from a position: the flash sequence rises by 1, staying at its limit, and the position's last-use takes its
new value (R92). -/
def countFlash (p : Pos) (s : State) : State :=
  let n := satSucc Config.max32 s.mount.flashSeq
  { s with mount := { s.mount with flashSeq := n } }.modPos p fun q => { q with lastUse := n }

/-! ## Waiters (R93, R95) -/

/-- A job that waited for a font becomes QUEUED, and its waited font none (R61). -/
def requeueWaiter (j : JobId) (s : State) : State :=
  s.modJob j fun r => { r with state := .queued, waitedFont := none }

/-- A MOUNT-WAIT notice for a job's desk, with the font as its detail. -/
def noticeMountWait (font : Nat) (j : JobId) (s : State) : State := s.notice s.jobs[j].owner .mountWait j font

/-- Jobs waiting without a request get one while fewer than 8 are pending: the earliest has a request created in the last
place, and every job waiting for the same font moves into it (R95). `n` bounds the requests created. -/
def promoteWaiting : Nat → State → State
  | 0, s => s
  | n + 1, s =>
    match s.mount.waiting with
    | [] => s
    | j :: _ =>
      match s.jobs[j].waitedFont with
      | none => s
      | some f =>
        if s.mount.requests.length < Config.maxRequests then
          let mine := s.mount.waiting.filter fun k => s.jobs[k].waitedFont = some f
          let left := s.mount.waiting.filter fun k => s.jobs[k].waitedFont ≠ some f
          let s1 := { s with mount := { s.mount with requests := s.mount.requests ++ [⟨f, none, mine⟩], waiting := left } }
          promoteWaiting n (mine.foldl (fun t k => noticeMountWait f k t) s1)
        else s

/-- The jobs waiting for a font, in waiting order: the request's waiters, then those without a request. -/
def waitersFor (f : Nat) (s : State) : List JobId :=
  ((s.mount.requests.find? fun r => r.font = f).map (·.waiters)).getD [] ++
    s.mount.waiting.filter fun j => s.jobs[j].waitedFont = some f

/-- Every job waiting for a font becomes QUEUED, its request is removed, and jobs without one are promoted (R95). -/
def releaseWaiters (f : Nat) (s : State) : State :=
  let js := waitersFor f s
  let s1 := { s with mount := { s.mount with
    requests := s.mount.requests.filter fun r => r.font ≠ f
    waiting := s.mount.waiting.filter fun j => s.jobs[j].waitedFont ≠ some f } }
  promoteWaiting Config.maxRequests (js.foldl (fun t j => requeueWaiter j t) s1)

/-- A job leaves the waiters without becoming QUEUED; a request left with none is removed (R74, R76, R95). -/
def leaveWaiters (j : JobId) (s : State) : State :=
  let rs := s.mount.requests.map fun r => { r with waiters := r.waiters.filter (· ≠ j) }
  let s1 := { s with mount := { s.mount with
    requests := rs.filter fun r => !r.waiters.isEmpty
    waiting := s.mount.waiting.filter (· ≠ j) } }
  promoteWaiting Config.maxRequests (s1.modJob j fun r => { r with waitedFont := none })

/-- A job stopped at a font joins its request, creates one, or waits without one (R60, R93). -/
def enterWaiter (j : JobId) (f : Nat) (s : State) : State :=
  if s.mount.requests.any fun r => r.font = f then
    noticeMountWait f j { s with mount := { s.mount with
      requests := s.mount.requests.map fun r => if r.font = f then { r with waiters := r.waiters ++ [j] } else r } }
  else if s.mount.requests.length < Config.maxRequests then
    noticeMountWait f j { s with mount := { s.mount with requests := s.mount.requests ++ [⟨f, none, [j]⟩] } }
  else { s with mount := { s.mount with waiting := s.mount.waiting ++ [j] } }

/-! ## Suggestions and the panel call (R94) -/

/-- The better of two unpinned positions: the smaller last-use, the first of two that are equal. -/
def olderPos (s : State) (best : Option Pos) (p : Pos) : Option Pos :=
  match best with
  | none => some p
  | some b => if s.mount.pos[p].lastUse < s.mount.pos[b].lastUse then some p else some b

/-- The suggestion for a request, with the positions already suggested to earlier requests set aside. -/
def suggest (s : State) (taken : List Pos) : Option Pos :=
  let free := allPositions.filter fun p => !taken.contains p
  match free.find? fun p => decide (s.mount.pos[p].st = .empty) with
  | some p => some p
  | none => (free.filter fun p => decide (s.mount.pos[p].pins = 0)).foldl (olderPos s) none

/-- The suggestions of the requests, in creation order. -/
def suggestAll (s : State) : List Pos → List MountRequest → List MountRequest
  | _, [] => []
  | taken, r :: rs =>
    let p := suggest s taken
    { r with suggested := p } :: suggestAll s (p.toList ++ taken) rs

/-- The call that the first pending request asks for. -/
def wantedCall (s : State) (rs : List MountRequest) : PanelCall :=
  match rs with
  | [] => .clear
  | r :: _ => .call r.font r.suggested (fontStrip s r.font) (nameAt s r.font)

/-- Whether a call differs from another in its font or its position, or in being clear. -/
def callDiffers : PanelCall → PanelCall → Bool
  | .clear, .clear => false
  | .call f p _ _, .call g q _ _ => decide (f ≠ g ∨ p ≠ q)
  | _, _ => true

/-- A panel call as the command MOUNT-CALL; a clear call has position 0 and strip code 0 (R94), and, as the manual gives no
name for it, eight zero name bytes (DESIGN CHOICE, assumption 43). -/
def PanelCall.command : PanelCall → MechCommand
  | .clear => .mountCall none 0 Config.noName
  | .call _ p c n => .mountCall p c n

/-- The suggestions computed again, and MOUNT-CALL sent where the first request's font or position has changed, or the
last request has ended (R94). -/
def refreshMount (s : State) : State :=
  let rs := suggestAll s [] s.mount.requests
  let c := wantedCall s rs
  let s1 := { s with mount := { s.mount with requests := rs } }
  if callDiffers c s.mount.panel then { s1 with mount := { s1.mount with panel := c } }.send c.command else s1

/-! ## Strips (R86 to R89) -/

/-- A strip of code `c` at position `p` is classified (R86); a font that becomes MOUNTED satisfies the jobs waiting. -/
def classifyStrip (p : Pos) (c : Nat) (s : State) : State :=
  match fontOfStrip s c with
  | none => s.modPos p fun q => { q with st := .unknown c, lastUse := 0 }
  | some f =>
    if allPositions.any fun r => decide (r ≠ p) && decide (s.mount.pos[r].font = some f) then
      s.modPos p fun q => { q with st := .duplicate c, lastUse := 0 }
    else
      releaseWaiters f (s.modPos p fun q => { q with st := .mounted f c, lastUse := s.mount.flashSeq })

/-- A position that is UNKNOWN or DUPLICATE is classified as if its strip had just been fitted; MOUNTED and EMPTY ones
are not (R88). -/
def reclassifyAt (s : State) (p : Pos) : State :=
  match s.mount.pos[p].st with
  | .unknown c => classifyStrip p c s
  | .duplicate c => classifyStrip p c s
  | _ => s

/-- Positions 1 to 6 classified again, in order (R88). -/
def reclassify (s : State) : State := allPositions.foldl reclassifyAt s

/-- The removal of a strip: the position becomes EMPTY with last-use 0, and the others are classified again (R89). -/
def emptyPosition (p : Pos) (s : State) : State :=
  reclassify (s.modPos p fun q => { q with st := .empty, lastUse := 0 })

end Sys2Proof.Machine
end

