-- ==== Sys2Proof/Machine/JobCode.lean ====
section
/-! DEFINITION. The job code (01): the composition settings with their clamps (R12 to R19), the parsing of a command
(R7, R8), and the text of a job, from the store or from its test pattern (R42, R161, R162, R183). -/

namespace Sys2Proof.Machine

/-! ## Settings and their clamps, shared by the job code and by SETTING-WRITE (R9) -/

/-- The largest lens size not above `n`; below 6 it is 6 (R13). -/
def snapSize (n : Nat) : Nat := Config.lensSizes.foldl (fun best z => if z ≤ n then z else best) 6

/-- The lens of a size (table of R13). -/
def lensOf (size : Nat) : Lens :=
  match Config.lensSizes.findIdx? (· = size) with
  | some i => if h : i < 12 then ⟨i, h⟩ else 0
  | none => 0

def Format.withSize (n : Nat) (f : Format) : Format := { f with size := snapSize n }

def Format.withLeading (n : Nat) (f : Format) : Format := { f with leading := min 999 n }

/-- A measure in set steps; an indent that no longer fits is reduced (R15). -/
def Format.withMeasure (steps : Nat) (f : Format) : Format :=
  { f with measure := steps, indent := min f.indent (steps - 360) }

/-- An indent in set steps, held to the measure in force (R15). -/
def Format.withIndent (steps : Nat) (f : Format) : Format := { f with indent := min steps (f.measure - 360) }

/-- The normal space raised to the minimum, then the maximum to the normal (R17). -/
def Format.orderSpaces (f : Format) : Format :=
  let b := max f.spMin f.spNorm
  { f with spNorm := b, spMax := max b f.spMax }

/-- A line's available width in fine units, 12 × (measure − indent) (R100). -/
def Format.width (f : Format) : Nat := 12 * (f.measure - f.indent)

/-! ## Commands -/

/-- The twelve command letters. -/
inductive Letter where
  | f | s | l | m | i | a | w | h | x | r | v | c
  deriving DecidableEq, Repr

/-- The letter a byte is, upper case only (R8). -/
def letterOf (b : Byte) : Option Letter :=
  match b.toNat with
  | 0x46 => some .f
  | 0x53 => some .s
  | 0x4C => some .l
  | 0x4D => some .m
  | 0x49 => some .i
  | 0x41 => some .a
  | 0x57 => some .w
  | 0x48 => some .h
  | 0x58 => some .x
  | 0x52 => some .r
  | 0x56 => some .v
  | 0x43 => some .c
  | _ => none

/-- The exception a byte of ESC X names. -/
def excOf (b : Byte) : Option Exc :=
  match b.toNat with
  | 0x4C => some .loose
  | 0x4F => some .overset
  | 0x48 => some .ladder
  | 0x4E => some .nobreak
  | 0x4D => some .missing
  | _ => none

/-- The argument a run of digits spells: longer than five digits, or above 65,535, it is taken as 65,535; with no digits
it is empty (R7). -/
def argOf (digits value : Nat) : Option Nat :=
  if digits = 0 then none else if 5 < digits then some Config.max16 else some (min Config.max16 value)

/-- Argument `i` of a list; one the list does not reach is empty (R7). -/
def argAt (args : List (Option Nat)) (i : Nat) : Option Nat := (args[i]?).join

/-- A field set by an argument, or left as it stands by an empty one. -/
def withArg (a : Option Nat) (f : Nat → Format → Format) (t : Format) : Format :=
  match a with
  | some n => f n t
  | none => t

/-- The format after a command other than ESC F, V, C and X (R13 to R18). -/
def Format.command (letter : Letter) (args : List (Option Nat)) (t : Format) : Format :=
  let a := argAt args 0
  match letter with
  | .s => withArg a Format.withSize t
  | .l => withArg a Format.withLeading t
  | .m => withArg a (fun n => Format.withMeasure (2 * clampNat 360 7200 n)) t
  | .i => withArg a (fun n f => f.withIndent (2 * min n ((f.measure - 360) / 2))) t
  | .a => withArg a (fun n f => { f with align := alignOf n }) t
  | .r => withArg a (fun n f => { f with rounding := roundingOf n }) t
  | .w =>
    let t1 := withArg a (fun n f => { f with spMin := min 48 n }) t
    let t2 := withArg (argAt args 1) (fun n f => { f with spNorm := min 48 n }) t1
    (withArg (argAt args 2) (fun n f => { f with spMax := min 48 n }) t2).orderSpaces
  | .h =>
    let t1 := withArg a (fun n f => { f with hyphenation := decide (n ≠ 0) }) t
    let t2 := withArg (argAt args 1) (fun n f => { f with minBefore := clampNat 1 5 n }) t1
    let t3 := withArg (argAt args 2) (fun n f => { f with minAfter := clampNat 2 5 n }) t2
    withArg (argAt args 3) (fun n f => { f with ladder := min 9 n }) t3
  | _ => t

/-- A reverse lead subtracted from the pending vertical move, no lower than −7,200 (R14). -/
def reverseLead (n : Nat) (v : Int) : Int := max (-7200) (v - (min 7200 n : Nat))

/-- The leading added by an empty QUAD, no higher than +999 (R5, R14). -/
def addLeading (n : Nat) (v : Int) : Int := min 999 (v + n)

/-! ## The text of a job -/

/-- One place of a job's text: a byte, or the glyph run of a line of the RULE pattern, whose count is fixed when the
engine reads it (R161; assumption 8). Each glyph of the run is a byte read, and advances the text offset (R1). -/
inductive Token where
  | byte (b : Byte)
  | ruleRun (font : Nat)
  deriving DecidableEq, Repr

/-- A command as bytes: ESC, the letter, the argument's digits, the terminator. -/
def escCommand (letter : Byte) (args : List Byte) : List Token :=
  ([0x1B, letter] ++ args ++ [0x3B]).map .byte

/-- ESC X; and ESC A n;, with which every pattern begins (R161, R162, R183). -/
def patternHead (align : Nat) : List Token := escCommand 0x58 [] ++ escCommand 0x41 (decimal align)

/-- The RULE pattern of a font (R161). -/
def rulePattern (font : Nat) : List Token :=
  patternHead 1 ++ Config.lensSizes.flatMap fun z =>
    escCommand 0x46 (decimal font) ++ escCommand 0x53 (decimal z) ++ escCommand 0x4C (decimal (12 * z)) ++
      [.ruleRun font, .byte 0x0A]

/-- The ALIGN pattern of the fonts of the MOUNTED positions, in position order (R162). -/
def alignPattern (fonts : List Nat) : List Token :=
  patternHead 0 ++ fonts.flatMap fun f =>
    escCommand 0x46 (decimal f) ++ [.byte 0x48, .byte 0x20, .byte 0x48, .byte 0x0B]

/-- The PRINT pattern (R183). -/
def printPattern : List Token :=
  patternHead 1 ++ escCommand 0x4D (decimal 7200) ++ escCommand 0x53 (decimal 6) ++
    (List.range' 0x21 95).map (fun c => .byte (byteOf c)) ++ [.byte 0x0A]

/-- The text of a job: the chain's bytes, or the pattern of a test job (R42, R77). -/
def jobText (s : State) (j : Job) : List Token :=
  match j.test, j.pattern with
  | .none, _ => (storedText s.store j).map .byte
  | .print, _ => printPattern
  | _, .rule f => rulePattern f
  | _, .align fs => alignPattern fs
  | _, .none => []

/-- The number of glyphs of a RULE line (R161): the floor of the available width over the glyph's width, at least 1 and
at most 160, and 1 where the glyph is absent. A number rewritten as a gate since the TEST was taken has no width table: its
glyph counts as absent (DESIGN CHOICE, assumption 52). -/
def ruleCount (s : State) (f : Format) (font : Nat) : Nat :=
  let u := fontWidth s font 0x5F
  if u = 0 then 1 else clampNat 1 160 (f.width / (5 * u * f.size))

end Sys2Proof.Machine
end

