-- ==== Sys2Proof/Machine/Line.lean ====
section
/-! DEFINITION. A line being built (06): its pieces, words and spaces, its measures (R100) and the fill test (R101). -/

namespace Sys2Proof.Machine

/-- Where the text stands after a byte: the working context, whose text offset names the next byte, and the cut request
of the line as it stands there. A line that begins at that byte begins with this context (R101). -/
structure Mark where
  ctx : Context
  cut : Bool
  deriving DecidableEq, Repr

/-- A glyph as measured: the code read, the code it is set with (the substitute of a MISSING glyph), font, size, width in
fine units. -/
structure Glyph where
  read : Byte
  code : Byte
  font : Nat
  size : Nat
  width : Nat
  deriving DecidableEq, Repr

/-- A piece of a word: a glyph, a fixed space, or a discretionary mark with the font and size current at it. -/
inductive Piece where
  | glyph (g : Glyph)
  | fixed (width : Nat)
  | mark (font size : Nat)
  deriving DecidableEq, Repr

/-- A piece, and where the text stands after it. -/
structure Item where
  piece : Piece
  after : Mark
  deriving DecidableEq, Repr

/-- An interword space: its three widths in fine units, the size it is scaled by, and where the text stands after it
(R100). -/
structure Space where
  min : Nat
  norm : Nat
  max : Nat
  size : Nat
  after : Mark
  deriving DecidableEq, Repr

/-- A word of a line, with the interword space before it; the first word has none. -/
structure LineWord where
  before : Option Space
  items : List Item
  deriving DecidableEq, Repr

/-- The fields that shape a whole line, as it took them at its first element or fixed space (R10). -/
structure Shape where
  measure : Nat
  indent : Nat
  align : Alignment
  rounding : Rounding
  leading : Nat
  pendingV : Int
  deriving DecidableEq, Repr

/-- The available width in fine units, A_f (R100). -/
def Shape.width (s : Shape) : Nat := 12 * (s.measure - s.indent)

def Piece.width : Piece → Nat
  | .glyph g => g.width
  | .fixed w => w
  | .mark .. => 0

def Piece.isGlyph : Piece → Bool
  | .glyph _ => true
  | _ => false

/-- The width of a run of items. -/
def itemsWidth (is : List Item) : Nat := (is.map fun i => i.piece.width).sum

/-- The elements of a run of items: its glyphs. -/
def itemsElements (is : List Item) : Nat := is.countP fun i => i.piece.isGlyph

/-- The spaces between the words of a line. -/
def spacesOf (ws : List LineWord) : List Space := ws.filterMap (·.before)

/-- The glyph total of a line without a hyphen glyph (R100). -/
def wordsWidth (ws : List LineWord) : Nat := (ws.map fun w => itemsWidth w.items).sum

def wordsElements (ws : List LineWord) : Nat := (ws.map fun w => itemsElements w.items).sum

/-- The sum of the minimum widths of a line's spaces. -/
def minSpaces (ws : List LineWord) : Nat := ((spacesOf ws).map (·.min)).sum

/-- The fill test, with a hyphen glyph of a width where the line would end in one (R101, R125). -/
def fits (sh : Shape) (ws : List LineWord) (hyphen : Option Nat) : Bool :=
  decide (wordsWidth ws + hyphen.getD 0 + minSpaces ws ≤ sh.width) &&
    decide (wordsElements ws + (if hyphen.isSome then 1 else 0) ≤ Config.maxElements)

/-- The width of a glyph of a font at a size (R79, R100). -/
def glyphWidth (entry size : Nat) : Nat := 5 * entry * size

end Sys2Proof.Machine
end

