-- ==== Sys2Proof/Machine/Hyphenation.lean ====
section
/-! DEFINITION. Hyphenation (07): letters and cores (R117, R118), candidate positions (R119 to R121), the break rules
(R122, R123), the minimums (R124), the choice of break (R125), and the exception dictionary's lookup (R128, R129). -/

namespace Sys2Proof.Machine

/-! ## Letters -/

/-- A letter is a code from 0x41 to 0x5A or from 0x61 to 0x7A (R117). -/
def isLetter (b : Byte) : Bool :=
  let c := b.toNat
  decide ((0x41 ≤ c ∧ c ≤ 0x5A) ∨ (0x61 ≤ c ∧ c ≤ 0x7A))

/-- A letter folded to lower case. -/
def fold (b : Byte) : Byte := if b.toNat ≤ 0x5A then byteOf (b.toNat + 32) else b

/-- The number of a lower-case letter, a = 1 to z = 26. -/
def letterNumber (b : Byte) : Nat := b.toNat - 96

/-- The hard hyphen and the hyphen glyph. -/
def hyphenCode : Byte := 0x2D

/-! ## The break rules (R122, R123) -/

/-- The vowels a, e, i, o, u; and y where it is not the first letter. -/
def isVowel (first : Bool) (b : Byte) : Bool :=
  match b.toNat with
  | 0x61 => true
  | 0x65 => true
  | 0x69 => true
  | 0x6F => true
  | 0x75 => true
  | 0x79 => !first
  | _ => false

/-- The vowels of a core, letter by letter. -/
def vowels (w : List Byte) : List Bool := w.mapIdx fun i b => isVowel (i = 0) b

/-- The digraphs ch, ck, gh, ph, sh, th, wh. -/
def isDigraph (a b : Byte) : Bool :=
  match a.toNat, b.toNat with
  | 0x63, 0x68 => true
  | 0x63, 0x6B => true
  | 0x67, 0x68 => true
  | 0x70, 0x68 => true
  | 0x73, 0x68 => true
  | 0x74, 0x68 => true
  | 0x77, 0x68 => true
  | _, _ => false

/-- The VC|CV rule gives core position `i`: letters `i` and `i + 1` are consonants and no digraph, and letters `i − 1`
and `i + 2` are vowels. Letter `k` of the manual is entry `k − 1` here. -/
def vccvAt (w : List Byte) (i : Nat) : Bool :=
  let v := vowels w
  decide (2 ≤ i ∧ i + 2 ≤ w.length) &&
    (v[i - 2]? == some true && v[i - 1]? == some false && v[i]? == some false && v[i + 1]? == some true) &&
    !isDigraph (w.getD (i - 1) 0) (w.getD i 0)

/-- The suffixes tion, sion, ment, ness, able, ing. -/
def suffixes : List (List Byte) :=
  [[0x74, 0x69, 0x6F, 0x6E], [0x73, 0x69, 0x6F, 0x6E], [0x6D, 0x65, 0x6E, 0x74], [0x6E, 0x65, 0x73, 0x73],
   [0x61, 0x62, 0x6C, 0x65], [0x69, 0x6E, 0x67]]

/-- The suffix rule gives core position `i`: the letters after it are a suffix, and those before it hold a vowel. -/
def suffixAt (w : List Byte) (i : Nat) : Bool :=
  suffixes.contains (w.drop i) && ((vowels w).take i).any id

/-- The rule positions of a core, each once, in increasing order (R123). -/
def rulePositions (w : List Byte) : List Nat :=
  (List.range' 1 (w.length - 1)).filter fun i => vccvAt w i || suffixAt w i

/-! ## The dictionary's lookup (R128, R129) -/

/-- The hash of a word in lower case: its bucket (R128). -/
def hashWord (w : List Byte) : Nat := w.foldl (fun h b => (h * 31 + letterNumber b) % 256) 0

/-- The bucket of a word. -/
def bucketOf (w : List Byte) : Fin 256 := Fin.ofNat 256 (hashWord w)

/-- The entry of a word in lower case, the first of its bucket's chain that matches (R129). -/
def lookupWord (d : Dictionary) (w : List Byte) : Option DictEntry :=
  d[bucketOf w].find? fun e => decide (e.word = w)

/-! ## Cores (R117, R118) -/

/-- The letter an item of a word is, in lower case, with its glyph. -/
def Item.letter (i : Item) : Option (Byte × Glyph) :=
  match i.piece with
  | .glyph g => if isLetter g.read then some (fold g.read, g) else none
  | _ => none

/-- A core: the place of its first letter among the word's items, and its letters. -/
structure Core where
  at_ : Nat
  letters : List (Byte × Glyph)
  deriving DecidableEq, Repr

/-- The items from the first letter to the last. -/
def coreItems (is : List Item) : List Item :=
  ((is.dropWhile fun i => i.letter.isNone).reverse.dropWhile fun i => i.letter.isNone).reverse

/-- The core of a word, if it is eligible for dictionary and rule breaks (R118). -/
def eligibleCore (s : State) (f : Format) (is : List Item) : Option Core :=
  let c := coreItems is
  let ls := c.filterMap Item.letter
  if f.hyphenation && decide (ls.length = c.length) && ls.all (fun l => mayHyphenate s l.2.font) &&
      decide (2 ≤ ls.length) then
    some ⟨is.findIdx fun i => i.letter.isSome, ls⟩
  else none

/-! ## Candidates (R119 to R124) -/

/-- The source that gave a position (R121, R126). -/
inductive BreakSource where
  | discretionary | hardHyphen | dictionary | rules
  deriving DecidableEq, Repr

/-- A candidate break, and what a break offered hands the engine (R126): the place where the prefix ends, after the word's
first `upTo` items; the font and size of the hyphen glyph added, or none; the source that gave the position. -/
structure Candidate where
  upTo : Nat
  hyphen : Option (Nat × Nat)
  source : BreakSource
  deriving DecidableEq, Repr

/-- The last glyph of a run of items. -/
def lastGlyph (is : List Item) : Option Glyph :=
  is.reverse.findSome? fun i => match i.piece with
    | .glyph g => some g
    | _ => none

/-- A run of items holds a glyph. -/
def hasGlyph (is : List Item) : Bool := is.any fun i => i.piece.isGlyph

/-- The item at a place is a discretionary mark. -/
def markAt (is : List Item) (i : Nat) : Option (Nat × Nat) :=
  match is[i]? with
  | some ⟨.mark f z, _⟩ => some (f, z)
  | _ => none

/-- The item at a place is a hard hyphen. -/
def hardHyphenAt (is : List Item) (i : Nat) : Bool :=
  match is[i]? with
  | some ⟨.glyph g, _⟩ => decide (g.read = hyphenCode)
  | _ => false

/-- The place just after the last glyph of a run of items. -/
def afterLastGlyph (is : List Item) : Nat := (is.reverse.dropWhile fun i => !i.piece.isGlyph).length

/-- The interior discretionary marks, each run of marks standing at the last (R119). A mark whose glyph before it is a
hard hyphen stands at the hard-hyphen position, is taken as it, and adds no glyph. -/
def markCandidates (is : List Item) : List Candidate :=
  (List.range is.length).filterMap fun i =>
    match markAt is i with
    | none => none
    | some fz =>
      if hasGlyph (is.take i) && hasGlyph (is.drop (i + 1)) && (markAt is (i + 1)).isNone then
        match lastGlyph (is.take i) with
        | some g =>
          if g.read = hyphenCode then some ⟨afterLastGlyph (is.take i), none, .hardHyphen⟩
          else some ⟨i + 1, some fz, .discretionary⟩
        | none => none
      else none

/-- The positions directly after the interior hard hyphens (R120). -/
def hardCandidates (is : List Item) : List Candidate :=
  (List.range is.length).filterMap fun i =>
    if hardHyphenAt is i && hasGlyph (is.take i) && hasGlyph (is.drop (i + 1)) then
      some ⟨i + 1, none, .hardHyphen⟩
    else none

/-- The positions of the core that the dictionary or the rules give, before the minimums, with their source (R121,
R129). -/
def corePositions (d : Dictionary) (w : List Byte) : BreakSource × List Nat :=
  match if w.length ≤ 24 then lookupWord d w else none with
  | some e => (.dictionary, e.breaks)
  | none => (.rules, rulePositions w)

/-- The candidates of an eligible core: its positions kept by the minimums, the hyphen glyph in the font and size of the
letter before the break (R124). -/
def coreCandidates (d : Dictionary) (f : Format) (c : Core) : List Candidate :=
  let n := c.letters.length
  let given := corePositions d (c.letters.map (·.1))
  (given.2.filter fun p => decide (f.minBefore ≤ p ∧ p < n ∧ f.minAfter ≤ n - p)).filterMap fun p =>
    (c.letters[p - 1]?).map fun l => ⟨c.at_ + p, some (l.2.font, l.2.size), given.1⟩

/-- The candidates of a word, from the first source that applies (R121). -/
def candidates (s : State) (f : Format) (is : List Item) : List Candidate :=
  let marks := markCandidates is
  let hards := hardCandidates is
  if !marks.isEmpty then marks ++ hards
  else if !hards.isEmpty then hards
  else
    match eligibleCore s f is with
    | some c => coreCandidates s.dict f c
    | none => []

/-! ## The choice (R125) -/

/-- The hyphen glyph of a candidate, measured in the font and size assigned to it. -/
def hyphenGlyph (s : State) (fz : Nat × Nat) : Glyph :=
  ⟨hyphenCode, hyphenCode, fz.1, fz.2, glyphWidth (fontWidth s fz.1 hyphenCode) fz.2⟩

/-- The prefix of a candidate fits on the line (R125). -/
def candidateFits (s : State) (sh : Shape) (ws : List LineWord) (before : Option Space) (is : List Item)
    (c : Candidate) : Bool :=
  fits sh (ws ++ [⟨before, is.take c.upTo⟩]) (c.hyphen.map fun fz => (hyphenGlyph s fz).width)

/-- The further right of two candidates. -/
def furtherRight (best : Option Candidate) (c : Candidate) : Option Candidate :=
  match best with
  | none => some c
  | some b => if b.upTo < c.upTo then some c else some b

/-- The break offered for a word on a line: the rightmost candidate whose prefix fits; none where its hyphen glyph is
absent from the font (R125). -/
def offeredBreak (s : State) (f : Format) (sh : Shape) (ws : List LineWord) (before : Option Space) (is : List Item) :
    Option Candidate :=
  match ((candidates s f is).filter (candidateFits s sh ws before is)).foldl furtherRight none with
  | none => none
  | some c =>
    match c.hyphen with
    | some fz => if fontWidth s fz.1 hyphenCode = 0 then none else some c
    | none => some c

end Sys2Proof.Machine
end

