-- ==== Sys2Proof/Machine/Justify.lean ====
section
/-! DEFINITION. Justification and placement (06): how a closed line is set (R109), its spaces and offset (R110 to R113),
the left edges (R114) and the set steps (R115). -/

namespace Sys2Proof.Machine

/-! ## How a line is set (R109) -/

/-- What a line was closed by: fill, a break or the element cap; QUAD or the end of the text; SPREAD; a RAGGED
decision. -/
inductive ClosedBy where
  | fill | quad | spread | ragged
  deriving DecidableEq, Repr

/-- The alignment a closed line is set by (table of R109). -/
def settingOf (c : ClosedBy) (a : Alignment) : Alignment :=
  match c with
  | .fill => a
  | .quad => if a = .justify then .left else a
  | .spread => .justify
  | .ragged => .left

/-! ## Spaces and offset (R110 to R113) -/

def sumMin (sp : List Space) : Nat := (sp.map (·.min)).sum

def sumNorm (sp : List Space) : Nat := (sp.map (·.norm)).sum

def sumMax (sp : List Space) : Nat := (sp.map (·.max)).sum

/-- Units added one each, from the left, to the widths that have room, until they are spent (R110). -/
def giveUnits : Nat → List (Nat × Bool) → List Nat
  | _, [] => []
  | n, (w, room) :: r => if room && decide (0 < n) then (w + 1) :: giveUnits (n - 1) r else w :: giveUnits n r

/-- Units taken one each, from the left, from the widths that have room, until the leftover is taken (R112). -/
def takeUnits : Nat → List (Nat × Bool) → List Nat
  | _, [] => []
  | n, (w, room) :: r => if room && decide (0 < n) then (w - 1) :: takeUnits (n - 1) r else w :: takeUnits n r

/-- A space's share of an amount, in proportion to its capacity out of the total (R110, R112). -/
def share (amount capacity total : Nat) : Nat := amount * capacity / total

/-- Spaces stretched by an excess `e` of at most their stretch capacity (R110). -/
def stretch (e : Nat) (sp : List Space) : List Nat :=
  let total := sumMax sp - sumNorm sp
  let shares := sp.map fun q => share e (q.max - q.norm) total
  giveUnits (e - shares.sum)
    (sp.map fun q =>
      (q.norm + share e (q.max - q.norm) total, decide (share e (q.max - q.norm) total < q.max - q.norm)))

/-- Spaces shrunk by `d`, at most their shrink capacity (R112). -/
def shrink (d : Nat) (sp : List Space) : List Nat :=
  let total := sumNorm sp - sumMin sp
  let shares := sp.map fun q => share d (q.norm - q.min) total
  takeUnits (d - shares.sum)
    (sp.map fun q =>
      (q.norm - share d (q.norm - q.min) total, decide (share d (q.norm - q.min) total < q.norm - q.min)))

/-- Spaces at their maximum, with `x` more shared equally, the remainder to the first ones (R111). -/
def overstretch (x : Nat) (sp : List Space) : List Nat :=
  giveUnits (x % sp.length) (sp.map fun q => (q.max + x / sp.length, true))

/-- A line's spaces as set, and its offset. -/
structure Setting where
  spaces : List Nat
  offset : Nat
  deriving DecidableEq, Repr

/-- The excess of a line: the available width, less its glyph total and its spaces at normal width (R110). -/
def excess (width glyphs : Nat) (sp : List Space) : Int := (width : Int) - glyphs - sumNorm sp

/-- The offset of a line with a slack (R113). -/
def slackOffset (a : Alignment) (slack : Nat) : Nat :=
  match a with
  | .justify => 0
  | .left => 0
  | .right => slack
  | .center => slack / 2

/-- A line set by an alignment (R110 to R113). A JUSTIFY line whose excess is above its stretch capacity is set as R111
gives. -/
def setLine (a : Alignment) (width glyphs : Nat) (sp : List Space) : Setting :=
  let e := excess width glyphs sp
  if sp.isEmpty then ⟨[], slackOffset a e.toNat⟩
  else if e < 0 then ⟨shrink (-e).toNat sp, 0⟩
  else
    match a with
    | .justify =>
      let c := sumMax sp - sumNorm sp
      if e.toNat ≤ c then ⟨stretch e.toNat sp, 0⟩ else ⟨overstretch (e.toNat - c) sp, 0⟩
    | _ => ⟨sp.map (·.norm), slackOffset a e.toNat⟩

/-- A JUSTIFY line is loose: its excess is above its stretch capacity, or, with no space, it has slack (R108). -/
def isLoose (width glyphs : Nat) (sp : List Space) : Bool :=
  if sp.isEmpty then decide (glyphs < width)
  else decide (((sumMax sp - sumNorm sp : Nat) : Int) < excess width glyphs sp)

/-! ## Placement (R114, R115) -/

/-- A left edge in fine units turned into a set step (R115). -/
def toStep (m : Rounding) (x : Nat) : Nat :=
  let lo := x / 12
  let r := x % 12
  if r = 0 then lo
  else
    match m with
    | .down => lo
    | .up => lo + 1
    | .nearestUp => if r < 6 then lo else lo + 1
    | .nearestEven => if r < 6 then lo else if 6 < r then lo + 1 else if lo % 2 = 0 then lo else lo + 1

/-- A glyph with its left edge in fine units, and its space mark (R182). -/
structure Placed where
  glyph : Glyph
  edge : Nat
  space : Bool
  deriving DecidableEq, Repr

/-- The glyphs of a run of items from a left edge on, with the edge after it and whether a space stands since the last
glyph (R114). -/
def placeItems : Nat → Bool → List Item → List Placed × Nat × Bool
  | x, sp, [] => ([], x, sp)
  | x, sp, i :: is =>
    match i.piece with
    | .glyph g =>
      let r := placeItems (x + g.width) false is
      (⟨g, x, sp⟩ :: r.1, r.2)
    | .fixed w => placeItems (x + w) true is
    | .mark .. => placeItems x sp is

/-- The glyphs of a line's words, with the spaces before them as set (R114). -/
def placeWords : Nat → Bool → List Nat → List LineWord → List Placed
  | _, _, _, [] => []
  | x, sp, widths, w :: ws =>
    match w.before, widths with
    | some _, k :: ks =>
      let r := placeItems (x + k) true w.items
      r.1 ++ placeWords r.2.1 r.2.2 ks ws
    | some _, [] =>
      let r := placeItems x true w.items
      r.1 ++ placeWords r.2.1 r.2.2 [] ws
    | none, ks =>
      let r := placeItems x sp w.items
      r.1 ++ placeWords r.2.1 r.2.2 ks ws

/-- The placed glyphs of a line set, from the indent and the offset (R114). -/
def placeLine (sh : Shape) (t : Setting) (ws : List LineWord) : List Placed :=
  placeWords (12 * sh.indent + t.offset) false t.spaces ws

/-- The first-space width in width units: the first interword space as set, over five times the size it was scaled by
(R116). -/
def firstSpaceWidth (t : Setting) (sp : List Space) : Option Nat :=
  match t.spaces, sp with
  | w :: _, q :: _ => some (w / (5 * q.size))
  | _, _ => none

end Sys2Proof.Machine
end

