-- ==== Sys2Proof/Machine/Build.lean ====
section
/-! DEFINITION. The building of one line (R98, steps 3 and 4): reading the job code (R1 to R20), filling (R101), the
break choice (R102), the exceptions (R103 to R108), and the line as set and placed. Nothing here changes the controller's
state: a build reads the state as it stands, and what it comes to is taken by the engine (Engine.lean). -/

namespace Sys2Proof.Machine

/-! ## A build in progress -/

/-- The exceptions raised in a build, and those that were settled by a decision of the decision list (R67, R103). -/
structure Raised where
  kinds : ExcSet
  applied : ExcSet
  deriving DecidableEq, Repr

/-- Where the reading stands in a command: outside one, at its letter, in its digit arguments, or in the letters of
ESC X. `esc` is the offset of the ESC byte (R8). -/
inductive Reading where
  | text
  | letter (esc : Nat)
  | args (esc : Nat) (letter : Letter) (done : List (Option Nat)) (digits value : Nat)
  | letters (esc : Nat) (set : ExcSet)
  deriving DecidableEq, Repr

/-- A build in progress. -/
structure Build where
  ctx : Context
  /-- The cut request of the line (R20). -/
  cut : Bool
  reading : Reading
  /-- What the line took at its first element or fixed space; none while it has neither (R10). -/
  shape : Option Shape
  /-- The complete words of the line. -/
  words : List LineWord
  /-- The interword space before the word being read. -/
  space : Option Space
  /-- The word being read. -/
  cur : List Item
  /-- The size of the last glyph read in the line, none before its first glyph (R3). -/
  lastSize : Option Nat
  /-- The font in force has been checked in this line (R81). -/
  checked : Bool
  exc : Raised
  deriving DecidableEq, Repr

/-- A closed line: its words with any hyphen glyph, how it closed, whether it is hyphenated (R102), where the next line
begins, whether the text ended with it. -/
structure Closed where
  shape : Shape
  words : List LineWord
  by_ : ClosedBy
  hyphenated : Bool
  next : Mark
  atEnd : Bool
  deriving DecidableEq, Repr

/-- What a build comes to (R98): a line closed, set and placed; the end of the text with no line to close; a stop to
WAIT-MOUNT, to FAULTED with its notice detail, or to HELD with its word count. -/
inductive BuildEnd where
  | line (c : Closed) (placed : List Placed) (firstSpace : Option Nat)
  | ended (at_ : Mark)
  | wait (font : Nat)
  | fault (reason : JobReason) (detail : Nat)
  | held (kind : Exc) (words : Nat)
  deriving DecidableEq, Repr

/-- The result of a build, with the exceptions raised in it. -/
structure Result where
  out : BuildEnd
  exc : Raised
  deriving DecidableEq, Repr

/-- One step of the reading: on with the build, or its end. -/
inductive Progress where
  | go (b : Build)
  | stop (r : Result)
  deriving DecidableEq, Repr

/-- The build stops, with the exceptions it has raised. -/
def Build.stop (b : Build) (e : BuildEnd) : Progress := .stop ⟨e, b.exc⟩

/-- Where the text stands. -/
def Build.mark (b : Build) : Mark := ⟨b.ctx, b.cut⟩

/-! ## Exceptions (R103) -/

/-- How an exception is settled: by an action, or by a hold. -/
inductive Ruling where
  | act (a : Action)
  | hold
  deriving DecidableEq, Repr

/-- The settlement of kind `k` on a line under a mask: its decision, or DEFAULT where it is masked, or a hold. -/
def ruling (j : Job) (line : Nat) (mask : ExcSet) (k : Exc) : Ruling :=
  match decisionFor j line k with
  | some a => .act a
  | none => if mask.has k then .hold else .act .default

/-- A kind raised: it joins the marks, and the decisions applied if its decision list holds one. -/
def Raised.raise (r : Raised) (j : Job) (line : Nat) (k : Exc) : Raised :=
  { kinds := r.kinds.add k
    applied := if (decisionFor j line k).isSome then r.applied.add k else r.applied }

/-- A kind raised in a build. -/
def Build.raise (b : Build) (j : Job) (k : Exc) : Build := { b with exc := b.exc.raise j b.ctx.line k }

/-- The settlement of a kind in a build, under the mask as it stands (R10, R103). -/
def Build.ruling (b : Build) (j : Job) (k : Exc) : Ruling := Machine.ruling j b.ctx.line b.ctx.fmt.mask k

/-! ## The line closed, set and placed (R107 to R116) -/

/-- The line set and placed by an alignment. -/
def Closed.place (c : Closed) (a : Alignment) : BuildEnd :=
  let sp := spacesOf c.words
  let t := setLine a c.shape.width (wordsWidth c.words) sp
  .line c (placeLine c.shape t c.words) (firstSpaceWidth t sp)

/-- The alignment a closed line is set by. -/
def Closed.setting (c : Closed) : Alignment := settingOf c.by_ c.shape.align

/-- The closed line raises LOOSE at its justification (R108). -/
def Closed.loose (c : Closed) : Bool :=
  decide (c.setting = .justify) && isLoose c.shape.width (wordsWidth c.words) (spacesOf c.words)

/-- A line closed before its word `k`, where it holds that word: the next line begins after the space before it (R107). -/
def closeAtWord (sh : Shape) (ws : List LineWord) (k : Nat) : Option Closed :=
  if k < 2 then none
  else
    match (ws[k - 1]?).bind (·.before) with
    | some sp =>
      some { shape := sh, words := ws.take (k - 1), by_ := .fill, hyphenated := false, next := sp.after, atEnd := false }
    | none => none

/-- Justification of a closed line, with the settlement of LOOSE (R108). -/
def justify (j : Job) (b : Build) (c : Closed) : Progress :=
  if c.loose then
    let b1 := b.raise j .loose
    match b.ruling j .loose with
    | .hold => b1.stop (.held .loose c.words.length)
    | .act .ragged => b1.stop ({ c with by_ := .ragged }.place .left)
    | .act (.breakBefore k) =>
      match closeAtWord c.shape c.words k with
      | some c1 => b1.stop (c1.place c1.setting)
      | none => b1.stop (c.place .justify)
    | .act _ => b1.stop (c.place .justify)
  else b.stop (c.place c.setting)

/-! ## The break choice (R102) -/

/-- The words of the line with the word being read. -/
def Build.allWords (b : Build) : List LineWord := b.words ++ [⟨b.space, b.cur⟩]

/-- The line closed before the word being read. -/
def Build.beforeWord (b : Build) (sh : Shape) (by_ : ClosedBy) : Closed :=
  { shape := sh, words := b.words, by_ := by_, hyphenated := false
    next := match b.space with
      | some sp => sp.after
      | none => b.mark
    atEnd := false }

/-- Where the next line begins after the first `n` items of the word being read. -/
def Build.afterItem (b : Build) (n : Nat) : Mark :=
  match b.cur[n - 1]? with
  | some i => i.after
  | none => b.mark

/-- The line closed at a break offered: the prefix, with its hyphen glyph where the break calls for one. -/
def Build.atBreak (s : State) (b : Build) (sh : Shape) (c : Candidate) : Closed :=
  let next := b.afterItem c.upTo
  let hyphen := match c.hyphen with
    | some fz => [Item.mk (.glyph (hyphenGlyph s fz)) next]
    | none => []
  { shape := sh, words := b.words ++ [⟨b.space, b.cur.take c.upTo ++ hyphen⟩], by_ := .fill, hyphenated := true
    next := next, atEnd := false }

/-- The forced break of OVERSET: the number of items up to the last glyph that fits, or up to the first glyph where none
does; the whole word where it holds no glyph (R104; DEDUCED, assumption 24). Where even the first glyph does not fit, the
fixed spaces and marks before it stay before it on the line; R104, by which the line takes "the first glyph alone", does
not say what becomes of them (DESIGN CHOICE, assumption 50). -/
def forcedLength (sh : Shape) (is : List Item) : Nat :=
  let glyphEnds := (List.range' 1 is.length).filter fun n =>
    match is[n - 1]? with
    | some i => i.piece.isGlyph
    | none => false
  match (glyphEnds.filter fun n => fits sh [⟨none, is.take n⟩] none).getLast? with
  | some n => n
  | none => glyphEnds.head?.getD is.length

/-- The line closed by the forced break. -/
def Build.atForced (b : Build) (sh : Shape) (by_ : ClosedBy) : Closed :=
  let n := forcedLength sh b.cur
  { shape := sh, words := [⟨b.space, b.cur.take n⟩], by_ := by_, hyphenated := false, next := b.afterItem n,
    atEnd := false }

/-- The font of the first glyph of a run of items is of type TEXT (R105). -/
def startsInText (s : State) (is : List Item) : Bool :=
  match is.findSome? fun i => match i.piece with
    | .glyph g => some g
    | _ => none with
  | some g => isTextFont s g.font
  | none => false

/-- The LADDER test: the limit is not 0 and the consecutive-hyphen count has reached it (R106). -/
def Build.ladderReached (b : Build) : Bool := decide (b.ctx.fmt.ladder ≠ 0 ∧ b.ctx.fmt.ladder ≤ b.ctx.hyphens)

/-- An exception that DEFAULT settles by closing before the word is settled; a line with the word counts `count` words
(R105 to R107). -/
def closeByRuling (j : Job) (b : Build) (sh : Shape) (k : Exc) (count : Nat) (proposed : Closed) : Progress :=
  let b1 := b.raise j k
  match b.ruling j k with
  | .hold => b1.stop (.held k count)
  | .act .proposed => justify j b1 proposed
  | .act .default => justify j b1 (b.beforeWord sh .fill)
  | .act .ragged => justify j b1 (b.beforeWord sh .ragged)
  | .act (.breakBefore n) => justify j b1 ((closeAtWord sh b.allWords n).getD (b.beforeWord sh .fill))

/-- OVERSET (R104). -/
def overset (j : Job) (b : Build) (sh : Shape) : Progress :=
  let b1 := b.raise j .overset
  match b.ruling j .overset with
  | .hold => b1.stop (.held .overset 1)
  | .act .ragged => justify j b1 (b.atForced sh .ragged)
  | .act _ => justify j b1 (b.atForced sh .fill)

/-- A word that does not fit (R102). -/
def wordTooWide (s : State) (j : Job) (b : Build) (sh : Shape) : Progress :=
  let offered := offeredBreak s b.ctx.fmt sh b.words b.space b.cur
  if b.words.isEmpty then
    match offered with
    | some c => justify j b (b.atBreak s sh c)
    | none => overset j b sh
  else
    match offered with
    | some c =>
      if b.ladderReached then closeByRuling j b sh .ladder (b.words.length + 1) (b.atBreak s sh c)
      else justify j b (b.atBreak s sh c)
    | none =>
      if b.ctx.fmt.hyphenation && startsInText s b.cur then
        closeByRuling j b sh .nobreak b.words.length (b.beforeWord sh .fill)
      else justify j b (b.beforeWord sh .fill)

/-! ## Spaces and line ends (R3, R5, R101) -/

/-- An interword space read at the byte just read (R100). -/
def Build.newSpace (b : Build) (size : Nat) : Space :=
  { min := 5 * b.ctx.fmt.spMin * size, norm := 5 * b.ctx.fmt.spNorm * size, max := 5 * b.ctx.fmt.spMax * size
    size := size, after := b.mark }

/-- An interword space: dropped with no glyph before it in the line, or directly after another; else it ends the word,
which the line takes if it fits (R3, R101). One dropped at the line's start leaves no space mark on the line's first
element (DEDUCED, assumption 47: R182 speaks of the interword spaces that stood before it). -/
def spaceByte (s : State) (j : Job) (b : Build) : Progress :=
  match b.lastSize, b.shape with
  | some size, some sh =>
    if b.cur.isEmpty then .go b
    else if fits sh b.allWords none then
      .go { b with words := b.allWords, cur := [], space := some (b.newSpace size) }
    else wordTooWide s j b sh
  | _, _ => .go b

/-- The line in progress ended, by a line end or the end of the text: the last word is taken if it fits (R101). -/
def endLine (s : State) (j : Job) (b : Build) (sh : Shape) (by_ : ClosedBy) (atEnd : Bool) : Progress :=
  let closed (ws : List LineWord) : Closed :=
    { shape := sh, words := ws, by_ := by_, hyphenated := false, next := b.mark, atEnd := atEnd }
  if b.cur.isEmpty then justify j b (closed b.words)
  else if fits sh b.allWords none then justify j b (closed b.allWords)
  else wordTooWide s j b sh

/-- QUAD: ends the line, or, with no element and no fixed space in it, adds the leading to the pending move and resets the
consecutive-hyphen count (R5). One that is the text's last byte closes its line as any other: the end of the text is
found by the job's next build, and the CUT record of R69 and COMPOSED are left to it (DESIGN CHOICE, assumption 48). -/
def quadByte (s : State) (j : Job) (b : Build) : Progress :=
  match b.shape with
  | some sh => endLine s j b sh .quad false
  | none =>
    .go { b with cur := [], ctx := { b.ctx with pendingV := addLeading b.ctx.fmt.leading b.ctx.pendingV, hyphens := 0 } }

/-- SPREAD: ends the line, or is dropped (R5). One that is the text's last byte leaves the end of the text to the next
build, as QUAD does (DESIGN CHOICE, assumption 48). -/
def spreadByte (s : State) (j : Job) (b : Build) : Progress :=
  match b.shape with
  | some sh => endLine s j b sh .spread false
  | none => .go { b with cur := [] }

/-- The end of the text: the line in progress is ended as if by QUAD, a command not ended is CODE-ERROR (R5, R8). -/
def endOfText (s : State) (j : Job) (b : Build) : Progress :=
  match b.reading with
  | .text =>
    match b.shape with
    | some sh => endLine s j b sh .quad true
    | none => b.stop (.ended b.mark)
  | .letter e => b.stop (.fault .codeError e)
  | .args e .. => b.stop (.fault .codeError e)
  | .letters e _ => b.stop (.fault .codeError e)

/-! ## Glyphs, fixed spaces and marks (R2 to R4) -/

/-- The stop an access check that fails comes to, with the offset it reports. -/
def Access.stop (a : Access) (detail : Nat) : Option BuildEnd :=
  match a with
  | .pass .. => none
  | .fontRange => some (.fault .fontRange detail)
  | .fontDenied => some (.fault .fontDenied detail)
  | .wait f => some (.wait f)

/-- The line takes its shape at its first element or fixed space; the pending vertical move goes with it (R10). -/
def Build.takeShape (b : Build) : Build :=
  match b.shape with
  | some _ => b
  | none =>
    let f := b.ctx.fmt
    { b with
      shape := some { measure := f.measure, indent := f.indent, align := f.align, rounding := f.rounding,
                      leading := f.leading, pendingV := b.ctx.pendingV }
      ctx := { b.ctx with pendingV := 0 } }

/-- The line-start check, made before the first glyph or fixed space in a font the line has not selected (R81); the
offset reported is that of the byte just read. -/
def startCheck (s : State) (j : Job) (b : Build) : Option BuildEnd :=
  if b.checked then none
  else (lineStartCheck s b.ctx.fmt.font j.level j.imagingDue).stop (b.ctx.offset - 1)

/-- A piece joins the word being read. -/
def Build.addPiece (b : Build) (p : Piece) : Build := { b with cur := b.cur ++ [⟨p, b.mark⟩] }

/-- A measured glyph joins the word being read. -/
def Build.addGlyph (b : Build) (read code : Byte) (width : Nat) : Build :=
  { b.addPiece (.glyph ⟨read, code, b.ctx.fmt.font, b.ctx.fmt.size, glyphWidth width b.ctx.fmt.size⟩) with
    lastSize := some b.ctx.fmt.size }

/-- A glyph measured, with the settlement of MISSING where its width entry is 0 (R104). -/
def measureGlyph (s : State) (j : Job) (b : Build) (c : Byte) : Progress :=
  let font := b.ctx.fmt.font
  let u := fontWidth s font c
  if u ≠ 0 then .go (b.addGlyph c c u)
  else
    let b1 := b.raise j .missing
    match b.ruling j .missing with
    | .hold => b1.stop (.held .missing b.words.length)
    | .act .proposed => .go (b1.addGlyph c c 0)
    | .act _ => .go (b1.addGlyph c (fontSubstitute s font) (fontWidth s font (fontSubstitute s font)))

/-- A glyph byte (R2). -/
def glyphByte (s : State) (j : Job) (b : Build) (c : Byte) : Progress :=
  match startCheck s j b with
  | some e => b.stop e
  | none => measureGlyph s j { b.takeShape with checked := true } c

/-- A FIXED SPACE (R3, R100). -/
def fixedByte (s : State) (j : Job) (b : Build) : Progress :=
  match startCheck s j b with
  | some e => b.stop e
  | none =>
    let b1 := { b.takeShape with checked := true }
    .go (b1.addPiece (.fixed (5 * b1.ctx.fmt.spNorm * b1.ctx.fmt.size)))

/-! ## Commands (R7, R8, R12 to R20) -/

/-- A font selected through the access check: by ESC F, or at offset 0 (R11, R12). -/
def selectFont (s : State) (j : Job) (b : Build) (n detail : Nat) : Progress :=
  match accessCheck s n j.level j.imagingDue with
  | .pass font size leading =>
    let f1 := { b.ctx.fmt with font := font }
    let f2 := withArg leading Format.withLeading (withArg size Format.withSize f1)
    .go { b with ctx := { b.ctx with fmt := f2 }, checked := true }
  | a =>
    match a.stop detail with
    | some e => b.stop e
    | none => .go b

/-- A well-formed command takes effect at its terminator (R7). -/
def runCommand (s : State) (j : Job) (b : Build) (esc : Nat) (cmd : Letter) (args : List (Option Nat)) : Progress :=
  let b0 := { b with reading := .text }
  match cmd with
  | .f =>
    match argAt args 0 with
    | some n => selectFont s j b0 n esc
    | none => .go b0
  | .v =>
    match argAt args 0 with
    | some n => .go { b0 with ctx := { b0.ctx with pendingV := reverseLead n b0.ctx.pendingV } }
    | none => .go b0
  | .c => .go { b0 with cut := true }
  | _ => .go { b0 with ctx := { b0.ctx with fmt := b0.ctx.fmt.command cmd args } }

/-- The byte after ESC (R8). -/
def letterByte (b : Build) (esc : Nat) (c : Byte) : Progress :=
  match letterOf c with
  | none => b.stop (.fault .codeError esc)
  | some .x => .go { b with reading := .letters esc Config.noExc }
  | some cmd => .go { b with reading := .args esc cmd [] 0 0 }

/-- A byte inside digit arguments (R7, R8). -/
def argByte (s : State) (j : Job) (b : Build) (esc : Nat) (cmd : Letter) (done : List (Option Nat)) (digits value : Nat)
    (c : Byte) : Progress :=
  let n := c.toNat
  if n = 0x3B then runCommand s j b esc cmd (done ++ [argOf digits value])
  else if n = 0x2C then .go { b with reading := .args esc cmd (done ++ [argOf digits value]) 0 0 }
  else if 0x30 ≤ n ∧ n ≤ 0x39 then .go { b with reading := .args esc cmd done (digits + 1) (10 * value + (n - 0x30)) }
  else b.stop (.fault .codeError esc)

/-- A byte inside the letters of ESC X (R8, R19). -/
def maskByte (b : Build) (esc : Nat) (set : ExcSet) (c : Byte) : Progress :=
  let n := c.toNat
  if n = 0x3B then .go { b with reading := .text, ctx := { b.ctx with fmt := { b.ctx.fmt with mask := set } } }
  else if n = 0x2C then .go b
  else
    match excOf c with
    | some k => .go { b with reading := .letters esc (set.add k) }
    | none => b.stop (.fault .codeError esc)

/-! ## Reading (R1) -/

/-- A byte outside a command, acted on by its class (table of 01, "Byte classes"). The offset has been advanced. -/
def textByte (s : State) (j : Job) (b : Build) (c : Byte) : Progress :=
  let n := c.toNat
  if n = 0x0A then quadByte s j b
  else if n = 0x0B then spreadByte s j b
  else if n = 0x1B then .go { b with reading := .letter (b.ctx.offset - 1) }
  else if n = 0x1E then fixedByte s j b
  else if n = 0x1F then .go (b.addPiece (.mark b.ctx.fmt.font b.ctx.fmt.size))
  else if n = 0x20 then spaceByte s j b
  else if 0x21 ≤ n ∧ n ≤ 0x7F then glyphByte s j b c
  else .go b

/-- The text offset advanced by one (R1). -/
def Build.advance (b : Build) : Build := { b with ctx := { b.ctx with offset := b.ctx.offset + 1 } }

/-- One byte read and acted on. -/
def readByte (s : State) (j : Job) (b : Build) (c : Byte) : Progress :=
  let b1 := b.advance
  match b1.reading with
  | .text => textByte s j b1 c
  | .letter esc => letterByte b1 esc c
  | .args esc cmd done digits value => argByte s j b1 esc cmd done digits value c
  | .letters esc set => maskByte b1 esc set c

/-- The text offset advanced by one for a further byte of a RULE run (R1, R161): the place in the pattern as the model
holds it stays. -/
def Build.advanceInRun (b : Build) : Build :=
  { b with ctx := { b.ctx with offset := b.ctx.offset + 1, runBytes := b.ctx.runBytes + 1 } }

/-- `n` further glyphs 0x5F of a run, each a byte read (R1, R161). -/
def glyphRun (s : State) (j : Job) : Nat → Build → Progress
  | 0, b => .go b
  | n + 1, b =>
    match glyphByte s j b.advanceInRun 0x5F with
    | .go b1 => glyphRun s j n b1
    | r => r

/-- One place of the text read: a byte, or a run of glyphs 0x5F, byte by byte (R1, R161). The run's count is at least 1. -/
def readToken (s : State) (j : Job) (b : Build) : Token → Progress
  | .byte c => readByte s j b c
  | .ruleRun font =>
    match glyphByte s j b.advance 0x5F with
    | .go b1 => glyphRun s j (ruleCount s b.ctx.fmt font - 1) b1
    | r => r

/-- The text read from the build's place on, to an outcome. -/
def readText (s : State) (j : Job) : List Token → Build → Result
  | [], b =>
    match endOfText s j b with
    | .stop r => r
    | .go b1 => ⟨.ended b1.mark, b1.exc⟩
  | t :: ts, b =>
    match readToken s j b t with
    | .go b1 => readText s j ts b1
    | .stop r => r

/-- A build at the start of a line (R98, step 3). -/
def startBuild (ctx : Context) : Build :=
  { ctx := ctx, cut := false, reading := .text, shape := none, words := [], space := none, cur := [], lastSize := none,
    checked := false, exc := ⟨Config.noExc, Config.noExc⟩ }

/-- The building of one line of a job from a context: at offset 0 the font selection of R11, then the reading. -/
def buildLine (s : State) (j : Job) (ctx : Context) : Result :=
  let b := startBuild ctx
  let rest := (jobText s j).drop (ctx.offset - ctx.runBytes)
  if ctx.offset = 0 then
    match selectFont s j b ctx.fmt.font 0 with
    | .go b1 => readText s j rest b1
    | .stop r => r
  else readText s j rest b

end Sys2Proof.Machine
end

