-- ==== Sys2Proof/Machine/Buffer.lean ====
section
/-! DEFINITION. The line buffer (08): appending (R136, R137), the two consumers (R138 to R140), leaving (R141),
cancellation (R142) and the flush that follows a spoil (R143, R144, R76). -/

namespace Sys2Proof.Machine

/-! ## Records -/

/-- The record is imaging-due and not done (R135). -/
def Record.imgLive (r : Record) : Bool := decide (r.img = .due ∨ r.img = .busy)

/-- The record is proof-due and not done (R135). -/
def Record.proofLive (r : Record) : Bool := decide (r.proof = .due ∨ r.proof = .busy)

/-- The elements of a record; a CUT record has none. -/
def Record.elements (r : Record) : List Element :=
  match r.text with
  | some t => t.elements
  | none => []

/-- The distinct turret positions of a record's elements (R137). The order in which they are pinned and unpinned, and so
POSITION-LOCK and POSITION-UNLOCK sent, is position order, which the manual does not give (DESIGN CHOICE, assumption
44). -/
def Record.positions (r : Record) : List Pos :=
  allPositions.filter fun p => r.elements.any fun e => e.pos = some p

/-- The pins of a record raised: 1 at each of its positions. -/
def pinRecord (r : Record) (s : State) : State := r.positions.foldl (fun t p => pin p t) s

/-- The pins of a record released. -/
def unpinRecord (r : Record) (s : State) : State := r.positions.foldl (fun t p => unpin p t) s

/-- The pins of a record released if its imaging field held them. -/
def releasePins (r : Record) (s : State) : State := if r.imgLive then unpinRecord r s else s

/-- The imaging field of a record in hand of the sequencer, when finished: DONE. -/
def Record.imgDone (r : Record) : Record := if r.img = .busy then { r with img := .done } else r

/-- The imaging field of a record in hand of the sequencer, when given back: DUE. -/
def Record.imgAgain (r : Record) : Record := if r.img = .busy then { r with img := .due } else r

/-- The proof field of a record in hand of the proof channel, when printed: DONE. -/
def Record.proofDone (r : Record) : Record := if r.proof = .busy then { r with proof := .done } else r

/-- The proof field of a record in hand of the proof channel, when given back: DUE, or NOT-DUE where its job is
CANCELLED. -/
def Record.proofAgain (cancelled : Bool) (r : Record) : Record :=
  if r.proof = .busy then { r with proof := if cancelled then .notDue else .due } else r

/-! ## Appending (R136) -/

/-- The proof field of a TEXT record of a job at append (table of R136). -/
def proofAtAppend (s : State) (j : JobId) (line : Nat) : ProofField :=
  let r := s.jobs[j]
  match r.mode with
  | .set => .notDue
  | .proofOnly => .due
  | .proofThenSet => if r.phase = .set then .notDue else .due
  | .setAndProof =>
    if line ≤ r.proofedHigh ∨
        s.buffer.any (fun b => decide (b.job = j) && decide (b.text.map (·.line) = some line) && b.proofLive) = true
    then .notDue else .due

/-- A TEXT record appended: its consumer fields are set, its pins raised and the line counted as composed. -/
def appendLine (j : JobId) (t : TextLine) (s : State) : State :=
  let due := s.jobs[j].imagingDue
  let r : Record := { job := j, text := some t, img := if due then .due else .notDue, proof := proofAtAppend s j t.line }
  let s1 := { s with buffer := s.buffer ++ [r] }
  let s2 := if due then pinRecord r s1 else s1
  s2.modJob j fun q => { q with composed := satSucc Config.max16 q.composed, textSinceCut := q.textSinceCut || due }

/-- A CUT record of a job appended (R135). -/
def appendCut (j : JobId) (s : State) : State :=
  let r : Record := { job := j, text := none, img := .due, proof := .notDue }
  let s1 := { s with buffer := s.buffer ++ [r] }
  s1.modJob j fun r => { r with textSinceCut := false }

/-! ## Leaving (R141) -/

/-- Records with neither field due or busy leave, their places are freed, and the checks of their jobs follow in
composition order (R134, R141). -/
def sweep (s : State) : State :=
  let gone := s.buffer.filter fun r => !(r.imgLive || r.proofLive)
  let s1 := { s with buffer := s.buffer.filter fun r => r.imgLive || r.proofLive }
  checkJobs (gone.map (·.job)) (refreshEngine s1)

/-! ## The imaging consumer (R138) -/

/-- The record in hand of the sequencer: the one BUSY for imaging. -/
def imgRecord (s : State) : Option Record := s.buffer.find? fun r => decide (r.img = .busy)

/-- The oldest record whose imaging field is DUE set to BUSY; the list unchanged if there is none. -/
def beginImg : List Record → List Record
  | [] => []
  | r :: rs => if r.img = .due then { r with img := .busy } :: rs else r :: beginImg rs

/-- The sequencer asks for a record. -/
def askImaging (s : State) : State := { s with buffer := beginImg s.buffer }

/-- The record in hand is finished: its imaging field becomes DONE, its pins are released, a line counts as exposed, and
the record leaves if no proof holds it (R138). -/
def finishImaging (s : State) : State :=
  match imgRecord s with
  | none => s
  | some r =>
    let s1 := { s with buffer := s.buffer.map Record.imgDone }
    let s2 := unpinRecord r s1
    let s3 := match r.text with
      | some _ => s2.modJob r.job fun q => { q with exposed := satSucc Config.max16 q.exposed }
      | none => s2
    sweep s3

/-- The record in hand is given back: its imaging field returns from BUSY to DUE (R148, R157). -/
def giveBackImaging (s : State) : State :=
  { s with buffer := s.buffer.map Record.imgAgain }

/-! ## The proof consumer (R139, R140) -/

/-- The record in hand of the proof channel: the one BUSY for proof. -/
def proofRecord (s : State) : Option Record := s.buffer.find? fun r => decide (r.proof = .busy)

/-- The oldest record whose proof field is DUE set to BUSY. -/
def beginProof : List Record → List Record
  | [] => []
  | r :: rs => if r.proof = .due then { r with proof := .busy } :: rs else r :: beginProof rs

/-- The line in hand has been printed: its proof field becomes DONE, the job's proofed count rises, and its high mark
where the line number is higher (R70, R139). -/
def finishProof (s : State) : State :=
  match proofRecord s with
  | none => s
  | some r =>
    let s1 := { s with buffer := s.buffer.map Record.proofDone }
    let line := (r.text.map (·.line)).getD 0
    sweep (s1.modJob r.job fun q =>
      { q with proofed := satSucc Config.max16 q.proofed, proofedHigh := max q.proofedHigh line })

/-- The line in hand is given back: its proof field returns to DUE, or, for a CANCELLED job, becomes NOT-DUE, so that
the record leaves unprinted (R139, R142). -/
def giveBackProof (s : State) : State :=
  sweep { s with buffer := s.buffer.map fun b => b.proofAgain (decide (s.jobs[b.job].state = .cancelled)) }

/-- Excusal from the oldest DUE record on: SET-AND-PROOF records are excused up to the first record of other work, and
the jobs of the records excused are listed (R140). -/
def excuse (s : State) : List Record → List Record × List JobId
  | [] => ([], [])
  | r :: rs =>
    if r.proof = .due then
      if s.jobs[r.job].mode = .setAndProof then
        let (bs, js) := excuse s rs
        ({ r with proof := .excused } :: bs, r.job :: js)
      else (r :: rs, [])
    else
      let (bs, js) := excuse s rs
      (r :: bs, js)

/-- While the channel is not ready the buffer excuses proofs, and counts one proof-lost line for each (R140). -/
def excuseProofs (s : State) : State :=
  let (bs, js) := excuse s s.buffer
  if js.isEmpty then s
  else
    sweep (js.foldl (fun t j => t.modJob j fun q => { q with proofLost := satSucc Config.max16 q.proofLost })
      { s with buffer := bs })

/-! ## Cancellation (R74, R142) -/

/-- A record of a cancelled job, as it stays in the buffer: a record BUSY for a consumer keeps that field, and the other
field, if DUE, becomes NOT-DUE; a record BUSY for neither is left with nothing due. -/
def Record.cancelled (r : Record) : Record :=
  { r with img := if r.img = .busy then .busy else if r.img = .due then .notDue else r.img
           proof := if r.proof = .busy then .busy else if r.proof = .due then .notDue else r.proof }

/-- The records of a cancelled job removed, but for those a consumer is at work on; the pins of every record whose
imaging was DUE are released (R142), record by record (R137), in composition order (DESIGN CHOICE, assumption 44). -/
def cancelRecords (j : JobId) (s : State) : State :=
  let mine := s.buffer.filter fun r => decide (r.job = j)
  let s1 := (mine.filter fun r => decide (r.img = .due)).foldl (fun t r => unpinRecord r t) s
  let bs := s1.buffer.map fun r => if r.job = j then r.cancelled else r
  refreshEngine { s1 with buffer := bs.filter fun r => decide (r.job ≠ j) || r.imgLive || r.proofLive }

/-- A job cancelled past RECEIVING (R74). -/
def cancelJob (j : JobId) (s : State) : State :=
  let was := s.jobs[j].state
  let s1 := if was = .waitMount then leaveWaiters j s else s
  let s2 := s1.modJob j fun r => { r with state := .cancelled, reason := .cancel, held := none, heldTimer := none }
  let s3 := { s2 with queue := { s2.queue with
    resume := if s2.queue.resume = some j then none else s2.queue.resume
    rerun := s2.queue.rerun.filter (· ≠ j) } }
  let s4 := if was = .composing then idleEngine s3 else s3
  checkJob j (cancelRecords j s4)

/-! ## The flush (R143, R144, R76) -/

/-- A record in a flush: kept for its proof where that is BUSY, else discarded (R143). -/
def Record.flushed (r : Record) : Option Record :=
  if r.imgLive then
    if r.proof = .busy then some { r with img := .notDue } else none
  else some r

/-- The first lost line of each job: its restart line and restart context, in composition order (R144). -/
def firstLost : List (JobId × Nat × Context) → List (JobId × Nat × Context)
  | [] => []
  | e :: es => e :: (firstLost es).filter fun x => x.1 ≠ e.1

/-- The sequence of lost lines: the segments, in take order, then the TEXT records that were imaging-due (R144). -/
def lostLines (segs : List Segment) (buffer : List Record) : List (JobId × Nat × Context) :=
  segs.map (fun g => (g.job, g.first, g.restart)) ++
    buffer.filterMap fun r =>
      if r.imgLive then r.text.map fun t => (r.job, t.line, t.start) else none

/-- A record of a job at or above its restart line whose proof is not BUSY (R144). -/
def Record.lostBy (e : JobId × Nat × Context) (r : Record) : Bool :=
  decide (r.job = e.1) && decide (r.proof ≠ .busy) &&
    match r.text with
    | some t => decide (e.2.1 ≤ t.line)
    | none => false

/-- The job's part in R76: a CANCELLED job is freed under R75, any other is rewound to its restart line. -/
def rewind (e : JobId × Nat × Context) (s : State) : State :=
  let j := e.1
  let r := s.jobs[j]
  if r.state = .cancelled ∨ r.state = .free then checkJob j s
  else
    let s1 := if r.state = .waitMount then leaveWaiters j s else s
    let s2 := if r.state = .composing then idleEngine s1 else s1
    let s3 := s2.modJob j fun q =>
      { q with state := .queued, saved := some e.2.2, composed := e.2.1 - 1, exposed := q.delivered, held := none,
               heldTimer := none, waitedFont := none, reason := .none }
    let s4 := { s3 with queue := { s3.queue with rerun := s3.queue.rerun.filter (· ≠ j) ++ [j] } }
    s4.notice r.owner .spoiled j e.2.1

/-- One job of the flush: its remaining records from the restart line on are removed, then it is handed over (R144). -/
def handOver (s : State) (e : JobId × Nat × Context) : State :=
  rewind e { s with buffer := s.buffer.filter fun r => !r.lostBy e }

/-- A COMPOSING job that the flush did not rewind stops at its line boundary and becomes QUEUED (R76). -/
def stopAtBoundary (s : State) : State :=
  match composingJob s with
  | some j => stopComposing j (fun r => { r with state := .queued }) s
  | none => s

/-- The flush of a spoil, with the segments emptied from the take (R143, R144); the job queue selects once the last job has
been handed over and the COMPOSING job has stopped (R76), before anything that follows the spoil in its event. -/
def flush (segs : List Segment) (s : State) : State :=
  let lost := firstLost (lostLines segs s.buffer)
  let touched := segs.map (·.job) ++ (s.buffer.filter (·.imgLive)).map (·.job)
  let s1 := (s.buffer.filter (·.imgLive)).foldl (fun t r => unpinRecord r t) s
  let s2 := { s1 with buffer := s1.buffer.filterMap Record.flushed }
  let s3 := stopAtBoundary (lost.foldl handOver s2)
  checkJobs touched (trySelect (refreshEngine s3))

end Sys2Proof.Machine
end

