-- ==== Sys2Proof/Machine/Proof.lean ====
section
/-! DEFINITION. The proof channel (11): readiness, pages and the header (R181), the proof line (R182), presenting
characters (R179, R180), and giving a record back. -/

namespace Sys2Proof.Machine

def State.modProof (f : ProofChannel → ProofChannel) (s : State) : State := { s with proof := f s.proof }

/-- The channel is ready: enabled, with the printer READY (R177). -/
def ProofChannel.isReady (c : ProofChannel) : Bool := c.enable && decide (c.printer = .ready)

/-- Carriage return and line feed. -/
def newLine : List Byte := [0x0D, 0x0A]

def blanks (n : Nat) : List Byte := List.replicate n 0x20

/-- The mode names of the header line (R181): SET, PROOF-ONLY, PROOF-THEN-SET, SET-AND-PROOF. -/
def Mode.name : Mode → List Byte
  | .set => [0x53, 0x45, 0x54]
  | .proofOnly => [0x50, 0x52, 0x4F, 0x4F, 0x46, 0x2D, 0x4F, 0x4E, 0x4C, 0x59]
  | .proofThenSet => [0x50, 0x52, 0x4F, 0x4F, 0x46, 0x2D, 0x54, 0x48, 0x45, 0x4E, 0x2D, 0x53, 0x45, 0x54]
  | .setAndProof => [0x53, 0x45, 0x54, 0x2D, 0x41, 0x4E, 0x44, 0x2D, 0x50, 0x52, 0x4F, 0x4F, 0x46]

/-- The header line, column by column (R181). The letters are JOB, DESK, TAG, MODE and PAGE. -/
def headerLine (j : JobId) (r : Job) (page : Nat) : List Byte :=
  [0x4A, 0x4F, 0x42, 0x20] ++ twoDigits j.val ++ blanks 2 ++
  [0x44, 0x45, 0x53, 0x4B, 0x20] ++ [byteOf (48 + r.owner.val)] ++ blanks 2 ++
  [0x54, 0x41, 0x47, 0x20] ++ decimalRight 5 r.tag.toNat ++ blanks 2 ++
  [0x4D, 0x4F, 0x44, 0x45, 0x20] ++ r.mode.name ++ blanks (14 - r.mode.name.length) ++ blanks 2 ++
  [0x50, 0x41, 0x47, 0x45, 0x20] ++ decimalRight 5 page

/-- The marks in columns 7 to 11: the letters L, O, H, N, M, a full stop where the exception does not mark the line. -/
def marksText (m : ExcSet) : List Byte :=
  [if m.l then 0x4C else 0x2E, if m.o then 0x4F else 0x2E, if m.h then 0x48 else 0x2E, if m.n then 0x4E else 0x2E,
   if m.m then 0x4D else 0x2E]

/-- The first-space width in columns 13 to 15: right-aligned, above 999 as 999, or three hyphens. -/
def spaceText : Option Nat → List Byte
  | some w => decimalRight 3 (min 999 w)
  | none => [0x2D, 0x2D, 0x2D]

/-- The text of a line's elements: a blank at a space mark, a font marker where the font changes, the glyph code, 0x7F
as `#` (R182). `font` is the font of the element before. -/
def elementsText : Option Nat → List Element → List Byte
  | _, [] => []
  | font, e :: es =>
    (if e.space then [0x20] else []) ++
    (if font = some e.font then [] else [0x5B] ++ twoDigits e.font ++ [0x5D]) ++
    [if e.code = 0x7F then 0x23 else e.code] ++ elementsText (some e.font) es

/-- Text of more than 116 columns takes its first 115 characters and `>` (R182). -/
def fitText (t : List Byte) : List Byte := if t.length ≤ 116 then t else t.take 115 ++ [0x3E]

/-- A line without its trailing blanks. -/
def trimBlanks (t : List Byte) : List Byte := (t.reverse.dropWhile fun b => b = 0x20).reverse

/-- The proof line of a record, in columns (R182). -/
def proofLine (marks : Bool) (t : TextLine) : List Byte :=
  trimBlanks (decimalRight 5 t.line ++ [0x20] ++ (if marks then marksText t.marks else blanks 5) ++ [0x20] ++
    spaceText t.firstSpace ++ [0x20] ++ fitText (elementsText none t.elements))

/-- The job a record is of, as the last-job-printed item keeps it: number, owning desk, tag. -/
def jobIdentity (s : State) (j : JobId) : JobId × Desk × BitVec 16 := (j, s.jobs[j].owner, s.jobs[j].tag)

/-- The record begins a new page (R181). -/
def beginsPage (s : State) (j : JobId) : Bool :=
  s.proof.newPage || decide (s.proof.last ≠ some (jobIdentity s j)) || decide (s.proof.linesPerPage ≤ s.proof.lines)

/-- The page number of a new page: 1 where the job differs from the last job printed, else one more (R181). -/
def nextPage (s : State) (j : JobId) : Nat :=
  if s.proof.last ≠ some (jobIdentity s j) then 1 else satSucc Config.max16 s.proof.page

/-- A form feed, and with the header on the header line and an empty line (R181). -/
def pageStart (s : State) (j : JobId) : List Byte :=
  [0x0C] ++ if s.proof.header then headerLine j s.jobs[j] (nextPage s j) ++ newLine ++ newLine else []

/-- The characters presented to the printer: the first in flight, the others after it. -/
def present (cs : List Byte) (s : State) : State :=
  s.modProof fun c => { c with inFlight := cs.head?, rest := cs.tail }

/-- Printing of a record begins (R180, R181). -/
def beginPrinting (j : JobId) (t : TextLine) (s : State) : State :=
  let line := proofLine s.proof.marks t ++ newLine
  if beginsPage s j then
    present (pageStart s j ++ line)
      (s.modProof fun c => { c with page := nextPage s j, lines := 0, newPage := false })
  else present line s

/-- The ready channel with no record in hand asks the buffer for one (R180). -/
def askProof (s : State) : State :=
  match proofRecord s with
  | some _ => s
  | none =>
    let s1 := { s with buffer := beginProof s.buffer }
    match proofRecord s1 with
    | some ⟨j, some t, _, _⟩ => beginPrinting j t s1
    | _ => s

/-- A ready channel asks for work; while it is not ready, the buffer excuses proofs (R140, R180). -/
def runProof (s : State) : State := if s.proof.isReady then askProof s else excuseProofs s

/-- The record in hand is given back: the character in flight is withdrawn and the new-page flag set (R179). -/
def giveBackPrinting (s : State) : State :=
  match proofRecord s with
  | none => s
  | some _ => giveBackProof (s.modProof fun c => { c with inFlight := none, rest := [], newPage := true })

/-- The proof line is done: the lines on page rise, the last job printed is the record's, the line is reported printed
(R180). -/
def printed (s : State) : State :=
  match proofRecord s with
  | none => s.modProof fun c => { c with inFlight := none }
  | some r =>
    finishProof (s.modProof fun c =>
      { c with inFlight := none, lines := c.lines + 1, last := some (jobIdentity s r.job) })

/-- A character accepted: the next is presented, or the line is done (R179, R180). -/
def takeAccept (s : State) : State :=
  match s.proof.inFlight with
  | none => s
  | some _ =>
    match s.proof.rest with
    | c :: cs => present (c :: cs) s
    | [] => printed s

end Sys2Proof.Machine
end

