-- ==== Sys2Proof/Machine/FilmTransport.lean ====
section
/-! DEFINITION. The film transport (10): positions and moves (R163, R169, R170), the take list (R171), beginning a cut
(R173), delivery (R174) and the spoil (R175). -/

namespace Sys2Proof.Machine

def State.modFilm (f : Film → Film) (s : State) : State := { s with film := f s.film }

/-- The film remaining: the load length less HW while the film is loaded, else 0 (R163). -/
def Film.remaining (f : Film) : Nat := if f.loaded then f.length - f.hw else 0

/-- The film gate (R165). -/
def Film.gate (f : Film) : Bool := f.loaded && f.takeUp && f.doorClosed

/-- The take length QUERY-MACHINE reports (R163). -/
def Film.takeLength (f : Film) : Nat := min Config.max16 (f.hw - f.cutpos)

/-! ## Moves -/

/-- The low test after an ADVANCE: FILM-LOW once per roll (R169). -/
def lowTest (s : State) : State :=
  let n := s.film.remaining
  if n < s.settings.lowThreshold * Config.foot ∧ s.film.lowSent = false then
    (s.modFilm fun f => { f with lowSent := true }).noticeAll .filmLow (n / Config.foot)
  else s

/-- ADVANCE by `n` sent: P rises by `n` and HW to P if P is then greater; the move is in flight; the low test is made
(R163, R169). -/
def sendAdvance (n : Nat) (s : State) : State :=
  let s1 := s.modFilm fun f => { f with p := f.p + n, hw := max f.hw (f.p + n), move := some (.advance n) }
  lowTest (s1.send (.advance n))

/-- REVERSE by `n` sent: P falls by `n`, HW stays (R163). -/
def sendReverse (n : Nat) (s : State) : State :=
  (s.modFilm fun f => { f with p := f.p - n, move := some (.reverse n) }).send (.reverse n)

/-- The reverse floor: the greater of CUTPOS and HW less the reverse limit (R170). -/
def reverseFloor (s : State) : Nat := max s.film.cutpos (s.film.hw - s.settings.reverseLimit)

/-- A line's target: P + L, raised to the reverse floor for a reverse (R167). -/
def moveTarget (s : State) (l : Int) : Nat :=
  if 0 ≤ l then s.film.p + l.toNat else max ((s.film.p : Int) + l).toNat (reverseFloor s)

/-! ## The take list (R171) -/

/-- Line `k` of job `j` extends the last segment of a take. -/
def extendsTake (take : List Segment) (j : JobId) (k : Nat) : Bool :=
  match take.getLast? with
  | some g => decide (g.job = j) && decide (g.last + 1 = k)
  | none => false

/-- The take with an exposed line added: it extends the last segment, or a new segment is appended. -/
def addLine (take : List Segment) (j : JobId) (t : TextLine) : List Segment :=
  match take.getLast? with
  | some g =>
    if g.job = j ∧ g.last + 1 = t.line then take.dropLast ++ [{ g with last := t.line }]
    else take ++ [⟨j, t.line, t.line, t.start⟩]
  | none => [⟨j, t.line, t.line, t.start⟩]

/-- A segment's line count. -/
def Segment.lines (g : Segment) : Nat := g.last - g.first + 1

/-! ## Cuts (R173) -/

/-- Step 2 of R173, for a take that is not empty: the cut is in flight at ADVANCING-TO-CUT, and the film advances to the
lesser of HW plus the cut margin and the load length. -/
def beginCut (why : CutPurpose) (s : State) : State :=
  let stop := min (s.film.hw + s.settings.cutMargin) s.film.length
  sendAdvance (stop - s.film.p) (s.modFilm fun f => { f with cut := some (.advancingToCut, why) })

/-- Step 3 of R173: BLADE is sent and the cut timer started with 2 s. -/
def sendBlade (why : CutPurpose) (s : State) : State :=
  (s.modFilm fun f => { f with cut := some (.blade, why), cutTimer := some Config.cutTime }).send .blade

/-- The first occurrences of a list's entries, in order. -/
def distinct {α : Type} [DecidableEq α] : List α → List α
  | [] => []
  | a :: r => a :: (distinct r).filter (· ≠ a)

/-- The part of the job queue in a delivery, for one job: the decisions at or below the delivered count are removed, and
the checks are made (R174). -/
def deliveredTo (s : State) (j : JobId) : State :=
  checkJob j (s.modJob j fun r => { r with decisions := r.decisions.filter fun d => decide (r.delivered < d.line) })

/-- A segment's lines counted as delivered (R174). -/
def countDelivered (s : State) (g : Segment) : State :=
  s.modJob g.job fun r => { r with delivered := satAdd r.delivered g.lines }

/-- Delivery of the take (R174). -/
def deliver (s : State) : State :=
  let segs := s.film.take
  let s1 := (segs.foldl countDelivered s).modFilm fun f => { f with take := [], pendingCut := false }
  (distinct (segs.map (·.job))).foldl deliveredTo s1

/-! ## Spoils (R175) -/

/-- A spoil: any film move and cut in flight end, the take is emptied without delivery, the pending cut is cleared, and
the segments go to the flush. -/
def spoil (s : State) : State :=
  flush s.film.take (s.modFilm fun f =>
    { f with take := [], pendingCut := false, move := none, cut := none, cutTimer := none })

end Sys2Proof.Machine
end

