-- ==== Sys2Proof/Machine/Sequencer.lean ====
section
/-! DEFINITION. The imaging sequencer (09) with the line's move (R167 to R170): stops, the resume test, faults, taking
work, the line, escapement and exposure, and the lamp. -/

namespace Sys2Proof.Machine

def State.modImg (f : Imaging → Imaging) (s : State) : State := { s with imaging := f s.imaging }

/-! ## Stops (R145) -/

/-- NO-FILM, FILM-OUT and GATE are film reasons (R145). -/
def StopReason.isFilm : StopReason → Bool
  | .noFilm => true
  | .filmOut => true
  | .gate => true
  | _ => false

/-- The sequencer is STOPPED with a reason, and IMAGING-STOPPED is raised for all desks (R145). -/
def enterStopped (r : StopReason) (s : State) : State :=
  (s.modImg fun i => { i with st := .stopped, stop := r }).noticeAll .imagingStopped r.code

/-- The film reason that the resume test finds, none where the sequencer may image (R158). -/
def filmReason (s : State) : StopReason :=
  if s.film.loaded = false then .noFilm
  else if s.film.gate = false then .gate
  else if s.film.filmOut then .filmOut
  else .none

/-- The resume test (R158). A reason that does not change while the sequencer stays STOPPED raises no notice (R145). -/
def resumeTest (s : State) : State :=
  let r := filmReason s
  if r = .none then s.modImg fun i => { i with st := .idle, stop := .none }
  else if s.imaging.st = .stopped ∧ s.imaging.stop = r then s
  else enterStopped r s

/-- The sequencer abandons the work in hand: its confirm timer stops and nothing is in flight (R156, step 1). -/
def abandonWork (s : State) : State :=
  s.modImg fun i => { i with move := none, retry := 0, confirmTimer := none }

/-- TURRET-FAULT, LENS-FAULT and LAMP-FAIL taken (R156). -/
def mechanismFault (r : StopReason) (s : State) : State :=
  let s1 := spoil (abandonWork s)
  let s2 := s1.modImg fun i =>
    { i with curPos := if r = .turretFault then none else i.curPos
             curLens := if r = .lensFault then none else i.curLens
             lowRun := if r = .lampFail then 0 else i.lowRun
             failCleared := if r = .lampFail then false else i.failCleared }
  enterStopped r s2

/-- CUT-FAULT taken: the transport has made its spoil and flush (R156, R173). -/
def cutFault (s : State) : State := enterStopped .cutFault (abandonWork s)

/-- The film transport reports that the film cannot be used (R157). -/
def filmLost (r : StopReason) (s : State) : State :=
  match s.imaging.st with
  | .idle => enterStopped r s
  | .advancing | .setting | .cutting =>
    enterStopped r (giveBackImaging (abandonWork (s.modFilm fun f => { f with move := none, cut := none, cutTimer := none })))
  | .stopped => if s.imaging.stop.isFilm then resumeTest s else s
  | .starting => s

/-- A film condition ended or changed: the resume test is made in STOPPED with a film reason (R158). -/
def filmChanged (s : State) : State :=
  if s.imaging.st = .stopped ∧ s.imaging.stop.isFilm = true then resumeTest s else s

/-! ## Commands awaited (R150) -/

/-- The command whose answer a move awaits; a flash's is not sent again. -/
def ImgMove.command : ImgMove → Option MechCommand
  | .turret p => some (.turret p)
  | .lens l => some (.lens l)
  | .lensHome => some .lensHome
  | .readStrip => some .readStrip
  | .flash => none

/-- A move is in flight: its command is sent, the confirm timer started, the retry count 0 (R150). -/
def startMove (m : ImgMove) (s : State) : State :=
  let s1 := s.modImg fun i =>
    { i with move := some m, retry := 0, limit := s.settings.retryLimit, confirmTimer := some s.settings.confirmTimeout }
  match m.command with
  | some c => s1.send c
  | none => s1

/-- A command sent again at an expiry, with a retry count (R150). -/
def resend (m : ImgMove) (retry : Nat) (s : State) : State :=
  (startMove m s).modImg fun i => { i with retry := retry }

/-- The answer has come: nothing is in flight and the timer stops. -/
def endMove (s : State) : State := s.modImg fun i => { i with move := none, confirmTimer := none }

/-! ## Escapement and exposure (R151, R152) -/

/-- A quotient rounded to the nearest whole number, a half upward. -/
def roundHalfUp (n d : Nat) : Nat := (2 * n + d) / (2 * d)

/-- The drive for a step under a lens trim (R151). -/
def drive (x : Nat) (trim : Int) : Nat := roundHalfUp (x * (10000 + trim).toNat) 10000

/-- The energy of a flash (R152). -/
def energy (base density aref a64 soak : Nat) : Nat :=
  let e :=
    if 0 < soak then roundHalfUp (base * density) 128
    else if a64 = 0 then 255
    else roundHalfUp (base * density * aref) (2 * a64)
  clampNat 1 255 e

/-- The deflection of a position: its latched baseline trim (R152). -/
def deflection (s : State) : Option Pos → Int
  | some p => s.imaging.latched.base[p]
  | none => 0

/-- Steps 3 and 4 of R149 for an element: ESCAPE, then FLASH, which the mount table counts. -/
def flashElement (e : Element) (s : State) : State :=
  let i := s.imaging
  let s1 := s.send (.escape (drive e.x i.latched.lens[e.lens]))
  let s2 := s1.send (.flash
    (energy i.latched.expo[e.lens] (fontDensity s e.font) s.settings.aref i.a64 i.soak) (deflection s e.pos))
  let s3 := match e.pos with
    | some p => countFlash p s2
    | none => s2
  startMove .flash s3

/-! ## The line (R147 to R149) -/

/-- The line in hand is exposed: it joins the take, its record is finished, ESCAPE 0 is sent and the sequencer is IDLE
(R149). ESCAPE 0 is sent for a line with no elements too (DEDUCED, assumption 45). -/
def lineExposed (s : State) : State :=
  let s1 := match imgRecord s with
    | some ⟨j, some t, _, _⟩ => s.modFilm fun f => { f with take := addLine f.take j t }
    | _ => s
  ((finishImaging s1).send (.escape 0)).modImg fun i => { i with st := .idle }

/-- The next command for the element being set, or the line's end (R149). -/
def runElement (s : State) : State :=
  match (imgRecord s).bind fun r => r.elements[s.imaging.elem]? with
  | none => lineExposed s
  | some e =>
    match e.pos with
    | some p =>
      if s.imaging.curPos ≠ some p then startMove (.turret p) s
      else if s.imaging.curLens ≠ some e.lens then startMove (.lens e.lens) s
      else flashElement e s
    | none =>
      if s.imaging.curLens ≠ some e.lens then startMove (.lens e.lens) s
      else flashElement e s

/-- The film has been moved for the line: SETTING begins with the first element (R148). -/
def beginSetting (s : State) : State := runElement (s.modImg fun i => { i with st := .setting, elem := 0 })

/-- The film-out condition is set and reported: FILM-OUT to all desks, the pending cut cleared (R168). -/
def noteFilmOut (s : State) : State :=
  (s.modFilm fun f => { f with filmOut := true, pendingCut := false }).noticeAll .filmOut 0

/-- FILM-OUT at the sequencer: the record is given back and the sequencer stops (R148). -/
def stopFilmOut (s : State) : State := enterStopped .filmOut (giveBackImaging (abandonWork s))

/-- The sequencer is CUTTING while the transport cuts. -/
def cutFor (why : CutPurpose) (s : State) : State := beginCut why (s.modImg fun i => { i with st := .cutting })

/-- A reverse of the line in hand of job `j` (R170). With P below the floor, which R170 does not speak of, no command is
sent, as with P at it (DEDUCED, assumption 46). -/
def reverseLine (j : JobId) (l : Int) (s : State) : State :=
  let floor := reverseFloor s
  if (floor : Int) ≤ (s.film.p : Int) + l then sendReverse (-l).toNat s
  else
    let s1 := s.modJob j fun r => { r with reverseClamped := true }
    if s.film.p ≤ floor then beginSetting s1 else sendReverse (s.film.p - floor) s1

/-- The reserve test and the move itself (R168 to R170). -/
def moveLine (j : JobId) (l : Int) (s : State) : State :=
  let far := max s.film.hw (moveTarget s l)
  if s.film.length < far + s.settings.cutReserve then
    if s.film.take.isEmpty then stopFilmOut (noteFilmOut s) else cutFor .filmOut s
  else if 0 < l then sendAdvance l.toNat s
  else if l = 0 then beginSetting s
  else reverseLine j l s

/-- The take-length test, cutting first where it is exceeded (R167, step 2). -/
def testLength (j : JobId) (l : Int) (s : State) : State :=
  let far := max s.film.hw (moveTarget s l)
  if s.settings.maxTake < far - s.film.cutpos ∧ s.film.take.isEmpty = false then cutFor .length s else moveLine j l s

/-- The segment-count test, cutting first where the take is full (R167, step 1). -/
def testSegments (j : JobId) (t : TextLine) (s : State) : State :=
  if s.film.take.length = Config.maxSegments ∧ extendsTake s.film.take j t.line = false then cutFor .segments s
  else testLength j t.move s

/-- The work on a record just given (R146 to R148). A CUT record's cut is dismissed where the take is empty. -/
def beginRecord (r : Record) (s : State) : State :=
  match r.text with
  | some t =>
    testSegments r.job t (s.modImg fun i => { i with latched := i.written, st := .advancing })
  | none => if s.film.take.isEmpty then finishImaging s else cutFor .record s

/-- The pending cut carried out, or dismissed where the take is empty (R146, R172). -/
def cutPending (s : State) : State :=
  if s.film.take.isEmpty then s.modFilm fun f => { f with pendingCut := false } else cutFor .pending s

/-- In IDLE the sequencer carries out the pending cut, then asks for records, until it waits for the mechanism, stops, or
finds none (R146). `n` bounds the records taken in one event. -/
def runImaging : Nat → State → State
  | 0, s => s
  | n + 1, s =>
    if s.imaging.st ≠ .idle then s
    else if s.film.pendingCut then runImaging n (cutPending s)
    else
      match imgRecord (askImaging s) with
      | none => s
      | some r => runImaging n (beginRecord r (askImaging s))

/-! ## The cut's end (R168, R173) -/

/-- The line in hand, where it is a TEXT record: its job, vertical move. -/
def lineInHand (s : State) : Option (JobId × TextLine) :=
  match imgRecord s with
  | some ⟨j, some t, _, _⟩ => some (j, t)
  | _ => none

/-- The cut is reported done to what asked for it. -/
def cutReported (why : CutPurpose) (s : State) : State :=
  match why with
  | .pending => s.modImg fun i => { i with st := .idle }
  | .record => (finishImaging s).modImg fun i => { i with st := .idle }
  | .segments =>
    match lineInHand s with
    | some (j, t) => testLength j t.move (s.modImg fun i => { i with st := .advancing })
    | none => s.modImg fun i => { i with st := .idle }
  | .length =>
    match lineInHand s with
    | some (j, t) => moveLine j t.move (s.modImg fun i => { i with st := .advancing })
    | none => s.modImg fun i => { i with st := .idle }
  | .filmOut => stopFilmOut (noteFilmOut s)

/-! ## The lamp (R153, R155) -/

/-- The lamp average after a reading (R153, step 1). -/
def lampAverage (i : Imaging) (k r : Nat) : Nat :=
  if i.seedPending then 64 * r
  else ((i.a64 : Int) + (64 * (r : Int) - i.a64) / 2 ^ k).toNat

/-- The low-reading run after a reading (R155). -/
def lowRunAfter (s : State) (r : Nat) : Nat := if r < s.settings.failThreshold then s.imaging.lowRun + 1 else 0

/-- The weak test, made while the lamp is online (R155). -/
def weakTest (s : State) : State :=
  if s.imaging.soak ≠ 0 then s
  else
    let v := s.imaging.a64 / 64
    if v < s.settings.weakThreshold then
      if s.imaging.weak then s else (s.modImg fun i => { i with weak := true }).noticeAll .lampWeak v
    else s.modImg fun i => { i with weak := false }

/-- The end of a flash: soak count, low-reading run, weak test, then the next element, or LAMP-FAIL at the third low
reading in a row (R153, R155). `r` is the reading the run counts. LAMP-FAIL goes first at the flash of the line's last
element too: the work is abandoned, so that the line is not exposed and no ESCAPE 0 is sent (DESIGN CHOICE,
assumption 51). -/
def flashEnded (r : Nat) (s : State) : State :=
  let s1 := s.modImg fun i => { i with soak := i.soak - 1 }
  let run := lowRunAfter s1 r
  if 3 ≤ run then weakTest (mechanismFault .lampFail s1)
  else
    runElement ((weakTest (s1.modImg fun i => { i with lowRun := run })).modImg fun i => { i with elem := i.elem + 1 })

/-! ## Strips taken (R87, R89, R90) -/

/-- The lock failure: work abandoned, take spoiled and flushed, then the position emptied, then STRIP-LOST (R90). A film-out
cut in flight ends by the spoil without its condition set or FILM-OUT raised (DEDUCED, assumption 18). -/
def lockFailure (p : Pos) (s : State) : State :=
  enterStopped .stripLost (emptyPosition p (spoil (abandonWork s)))

/-- STRIP-OUT at a position (R89, R90). -/
def takeStripOut (p : Pos) (s : State) : State :=
  if s.mount.pos[p].st = .empty then s
  else if 0 < s.mount.pos[p].pins then lockFailure p s
  else emptyPosition p s

end Sys2Proof.Machine
end

