-- ==== Sys2Proof/Machine/Settle.lean ====
section
/-! DEFINITION. What follows inside an event once its own effect is made: the sequencer takes work if it is IDLE (R146),
the proof channel asks or the buffer excuses (R140, R180), the engine passes on (R97), the job queue selects (R58), the
suggestions and the panel call are computed again (R94), and the flow-control decision of the blocks freed is made (R46,
R49). These are the "also within" steps of 95_what_each_step_holds.md. -/

namespace Sys2Proof.Machine

/-- The records the sequencer can take in one event: each in the buffer once, and the pending cut. -/
def imagingFuel (s : State) : Nat := s.buffer.length + 2

/-- The sequencer takes work, in as far as it is IDLE. -/
def settleImaging (s : State) : State := runImaging (imagingFuel s) s

/-- All that follows an event; `before` is the free count before it. -/
def settle (before : Nat) (s : State) : State :=
  flowIfFreed before (refreshMount (trySelect (refreshEngine (runProof (settleImaging s)))))

end Sys2Proof.Machine
end

