-- ==== Sys2Proof/Machine/Engine.lean ====
section
/-! DEFINITION. The composition engine's build event, LINE_BUILD (R98, R99): an owed CUT record, the preemption of R62
and R63, a line appended (R116), the stops of R60, R64 and R68, and the end of the text (R69). -/

namespace Sys2Proof.Machine

/-! ## CUT records and the end of the text (R20, R69, R99) -/

/-- The job is COMPOSED, and the completion check is made (R69). -/
def finishText (j : JobId) (s : State) : State :=
  checkJob j (stopComposing j (fun r => { r with state := .composed }) s)

/-- A CUT record called for, by a line or at the end of the text, is due (R20, R69). -/
def cutDue (r : Job) (request atEnd : Bool) : Bool :=
  r.imagingDue && r.textSinceCut && (request || (atEnd && r.cutAtEnd))

/-- After a line, or at the end of the text: the CUT record, appended or owed, and the end of the job's composition where
the text has ended and nothing is owed (R69, R99). -/
def afterLine (j : JobId) (request atEnd : Bool) (s : State) : State :=
  if cutDue s.jobs[j] request atEnd then
    if s.buffer.length < Config.bufferSize then
      let s1 := appendCut j s
      if atEnd then finishText j s1 else s1
    else { s with engine := { s.engine with owed := some (if atEnd then .atEnd else .afterLine) } }
  else if atEnd then finishText j s
  else s

/-- The owed CUT record appended (R99). -/
def appendOwed (j : JobId) (o : OwedCut) (s : State) : State :=
  let s1 := appendCut j { s with engine := { s.engine with owed := none } }
  match o with
  | .afterLine => s1
  | .atEnd => finishText j s1

/-! ## Preemption (R62, R63) -/

/-- A RUSH job is QUEUED. -/
def rushWaits (s : State) : Bool := allJobs.any fun j => decide (s.jobs[j].state = .queued ∧ s.jobs[j].cls = .rush)

/-- The check of R62 preempts the job. -/
def isPreempted (j : JobId) (s : State) : Bool := decide (s.jobs[j].cls ≠ .rush) && rushWaits s

/-- Preemption of a job (R63). -/
def preempt (j : JobId) (s : State) : State :=
  let s1 := if s.jobs[j].imagingDue && s.jobs[j].textSinceCut then appendCut j s else s
  let s2 := stopComposing j (fun r => { r with state := .queued }) s1
  { s2 with queue := { s2.queue with resume := some j } }

/-! ## The record (R116) -/

/-- An element of a record, from a placed glyph: the lens of its size, its set step, and for imaging-due work the position
at which its font is MOUNTED. -/
def elementOf (s : State) (due : Bool) (m : Rounding) (p : Placed) : Element :=
  { code := p.glyph.code, font := p.glyph.font, lens := lensOf p.glyph.size, x := toStep m p.edge
    pos := if due then mountedAt s p.glyph.font else none, space := p.space }

/-- The TEXT record's fields that the engine supplies. -/
def textLine (s : State) (r : Job) (start : Context) (c : Closed) (placed : List Placed) (first : Option Nat)
    (marks : ExcSet) : TextLine :=
  { line := start.line, start := start, move := clampInt (-7200) 999 (c.shape.leading + c.shape.pendingV)
    elements := placed.map (elementOf s r.imagingDue c.shape.rounding), firstSpace := first, hyphenated := c.hyphenated
    marks := marks }

/-- The context of the next line (R116, steps 1 to 3 and 5). The consecutive-hyphen count is updated with the record as R127
gives, by whether the line is hyphenated; the byte SPREAD itself resets nothing (R5; DEDUCED, assumption 41). -/
def nextContext (start : Context) (c : Closed) : Context :=
  { c.next.ctx with
    line := start.line + 1
    hyphens := if c.hyphenated then satSucc Config.max16 c.next.ctx.hyphens else 0 }

/-- A line's record appended, and the context moved on (R116). -/
def recordLine (j : JobId) (c : Closed) (placed : List Placed) (first : Option Nat) (exc : Raised) (s : State) : State :=
  let r := s.jobs[j]
  let start := r.saved.getD (freshContext s)
  let next := nextContext start c
  let s1 := appendLine j (textLine s r start c placed first exc.kinds) s
  let s2 := s1.modJob j fun q =>
    { q with saved := some next, decisions := dropUnapplied start.line exc.applied q.decisions }
  afterLine j c.next.cut c.atEnd { s2 with engine := { s2.engine with work := some next } }

/-! ## The stops (R60, R64, R68) -/

/-- The job stops to WAIT-MOUNT for a font (R60). -/
def stopForFont (j : JobId) (f : Nat) (s : State) : State :=
  enterWaiter j f (stopComposing j (fun r => { r with state := .waitMount, waitedFont := some f }) s)

/-- The job stops to HELD (R64). -/
def stopHeld (j : JobId) (k : Exc) (line words : Nat) (s : State) : State :=
  let t := s.settings.heldTimeout
  (stopComposing j (fun r =>
    { r with state := .held, held := some ⟨k, line, words⟩, heldTimer := if t = 0 then none else some t }) s).notice
      s.jobs[j].owner .jobHeld j line

/-- The job stops to FAULTED, and is freed at once where it has no line left (R68, R75). -/
def stopFaulted (j : JobId) (reason : JobReason) (detail : Nat) (s : State) : State :=
  checkJob j ((stopComposing j (fun r => { r with state := .faulted, reason := reason }) s).notice
    s.jobs[j].owner .jobFaulted j detail)

/-! ## The build event -/

/-- The sticky flags of the exceptions raised in a build (R103). -/
def flagRaised (j : JobId) (e : ExcSet) (s : State) : State :=
  s.modJob j fun r => { r with sticky := r.sticky.union e }

/-- What the build of a line comes to, taken by the engine (R98). -/
def takeResult (j : JobId) (ctx : Context) (r : Result) (s : State) : State :=
  let s1 := flagRaised j r.exc.kinds s
  match r.out with
  | .line c placed first => recordLine j c placed first r.exc s1
  | .ended m => afterLine j m.cut true s1
  | .wait f => stopForFont j f s1
  | .fault reason detail => stopFaulted j reason detail s1
  | .held k words => stopHeld j k ctx.line words s1

/-- One build of the COMPOSING job (R98). -/
def buildOnce (j : JobId) (s : State) : State :=
  match s.engine.owed with
  | some o => appendOwed j o s
  | none =>
    if isPreempted j s then preempt j s
    else
      let ctx := s.jobs[j].saved.getD (freshContext s)
      takeResult j ctx (buildLine s s.jobs[j] ctx) s

/-- A line build, taken only in RUNNING (R98). -/
def takeBuild (s : State) : State :=
  if s.engine.st = .running then
    match composingJob s with
    | some j => settle s.store.freeCount (buildOnce j s)
    | none => s
  else s

end Sys2Proof.Machine
end

