-- ==== Sys2Proof/Machine/JobRequests.lean ====
section
/-! DEFINITION. The job requests at the link and in the queue: OPEN (R25), TEXT (R26, R43), CLOSE (R57), CANCEL (R73),
DECIDE (R65), RELEASE (R72), TEST (R77), QUERY-JOB (R39). Each takes the desk and the payload, checks the payload's form
(R22, check 3), makes the request's own checks in order, and queues one reply. -/

namespace Sys2Proof.Machine

/-- A refusal: a reply with no data, and no other change (R22). -/
def refuse (d : Desk) (type : Byte) (c : ReplyCode) (s : State) : State := s.reply d type c []

/-- The desk's silence timer stopped. -/
def stopSilence (d : Desk) (s : State) : State := s.modLink d fun l => { l with silenceTimer := none }

/-! ## OPEN -/

/-- The form of OPEN's payload: tag, mode, class, origin level, cut-at-end. -/
structure OpenForm where
  tag : BitVec 16
  mode : Mode
  cls : JobClass
  origin : Nat
  cutAtEnd : Bool
  deriving DecidableEq, Repr

/-- OPEN's payload read, none where its length or a coded field is not as the table gives. -/
def openForm : List Byte → Option OpenForm
  | [t1, t2, m, c, o, e] =>
    match modeOf m.toNat, classOf c.toNat with
    | some mode, some cls =>
      if o.toNat ≤ 3 ∧ e.toNat ≤ 1 then some ⟨word2 t1 t2, mode, cls, o.toNat, decide (e.toNat = 1)⟩ else none
    | _, _ => none
  | _ => none

/-- The class taken: RUSH from a desk above level 0 is PRIORITY (R25). -/
def classTaken (level : Nat) (c : JobClass) : JobClass := if c = .rush ∧ 0 < level then .priority else c

/-- The record that OPEN fills (R25, R55). -/
def openedJob (d : Desk) (level : Nat) (f : OpenForm) : Job :=
  { Job.free with
    state := .receiving, owner := d, tag := f.tag, level := max level f.origin, mode := f.mode,
    phase := f.mode.firstPhase, cls := classTaken level f.cls,
    cutAtEnd := f.cutAtEnd || decide (classTaken level f.cls = .rush) }

/-- The record limits of OPEN and TEST: 12 records of the desk, 32 in all (R25, R30). -/
def recordLimit (d : Desk) (s : State) : Option ReplyCode :=
  if Config.deskShare ≤ ownedBy d s then some .limit else if (freeRecord s).isNone then some .full else none

/-- The checks of OPEN, in order (R25); none where it is admitted. -/
def openCheck (d : Desk) (s : State) : Option ReplyCode :=
  if (receivingJob d s).isSome then some .busy
  else
    match recordLimit d s with
    | some c => some c
    | none => if s.store.freeCount < s.settings.fullReserve then some .full else none

/-- OPEN (R25). -/
def requestOpen (d : Desk) (payload : List Byte) (s : State) : State :=
  match openForm payload with
  | none => refuse d 0x10 .badValue s
  | some f =>
    match openCheck d s, freeRecord s with
    | some c, _ => refuse d 0x10 c s
    | none, none => refuse d 0x10 .full s
    | none, some j =>
      let r := openedJob d s.settings.deskLevel[d] f
      let s1 := (s.modJob j fun _ => r).modLink d fun l => { l with silenceTimer := some s.settings.silence }
      s1.reply d 0x10 .ok [byteOf j.val, byteOf r.cls.code, byteOf r.level]

/-! ## TEXT -/

/-- The RECEIVING job of a desk that TEXT names (R26). -/
def textJob (d : Desk) (number : Byte) (s : State) : Option JobId :=
  match jobOf number with
  | some j => if s.jobs[j].state = .receiving ∧ s.jobs[j].owner = d then some j else none
  | none => none

/-- TEXT abandons its job with a reason, then is answered with a code (R26, R43). -/
def textAbandons (d : Desk) (j : JobId) (why : JobReason) (c : ReplyCode) (s : State) : State :=
  (abandon d j why s).reply d 0x11 c []

/-- The text taken by the store (R43). -/
def takeText (d : Desk) (j : JobId) (offset : Nat) (bytes : List Byte) (s : State) : State :=
  let have_ := s.jobs[j].bytes
  if offset ≠ have_ then textAbandons d j .gap .badValue s
  else if Config.maxText < offset + bytes.length then textAbandons d j .oversize .badValue s
  else if s.store.freeCount < blocksNeeded have_ bytes.length then textAbandons d j .overrun .full s
  else
    let s1 := appendText j bytes s
    let s2 := if 0 < blocksNeeded have_ bytes.length then flowAfterTaking s1 else s1
    s2.reply d 0x11 .ok (be2 (have_ + bytes.length))

/-- TEXT (R26). -/
def requestText (d : Desk) (payload : List Byte) (s : State) : State :=
  match payload with
  | number :: o1 :: o2 :: bytes =>
    if 1 ≤ bytes.length ∧ bytes.length ≤ 64 then
      match textJob d number s with
      | some j => takeText d j (nat2 o1 o2) bytes s
      | none => refuse d 0x11 .noJob s
    else refuse d 0x11 .badValue s
  | _ => refuse d 0x11 .badValue s

/-! ## CLOSE, CANCEL, DECIDE, RELEASE (R27) -/

/-- The job that a number and a tag match for a desk (R27). -/
def matchJob (d : Desk) (number : Byte) (tag : BitVec 16) (s : State) : Option JobId :=
  match jobOf number with
  | some j =>
    if s.jobs[j].state ≠ .free ∧ s.jobs[j].owner = d ∧ s.jobs[j].tag = tag then some j else none
  | none => none

/-- A RECEIVING job closed (R57). -/
def closeJob (d : Desk) (j : JobId) (s : State) : State :=
  if s.jobs[j].bytes = 0 then stopSilence d (freeJob j s)
  else trySelect (stopSilence d (enterTail j (s.modJob j fun r => { r with state := .queued })))

/-- CLOSE. -/
def requestClose (d : Desk) (payload : List Byte) (s : State) : State :=
  match payload with
  | [n, t1, t2] =>
    match matchJob d n (word2 t1 t2) s with
    | none => refuse d 0x12 .noJob s
    | some j =>
      if s.jobs[j].state = .receiving then (closeJob d j s).reply d 0x12 .ok [] else refuse d 0x12 .badState s
  | _ => refuse d 0x12 .badValue s

/-- CANCEL (R73). -/
def requestCancel (d : Desk) (payload : List Byte) (s : State) : State :=
  match payload with
  | [n, t1, t2] =>
    match matchJob d n (word2 t1 t2) s with
    | none => refuse d 0x13 .noJob s
    | some j =>
      match s.jobs[j].state with
      | .receiving => (abandon d j .cancel s).reply d 0x13 .ok []
      | .cancelled => refuse d 0x13 .badState s
      | _ => (settle s.store.freeCount (cancelJob j s)).reply d 0x13 .ok []
  | _ => refuse d 0x13 .badValue s

/-- The action of DECIDE: 0 PROPOSED, 1 DEFAULT, 2 RAGGED, and 3 BREAK-BEFORE with its word index (R22, R27). -/
def actionForm (action : Byte) (rest : List Byte) : Option Action :=
  match action.toNat, rest with
  | 0, [] => some .proposed
  | 1, [] => some .default
  | 2, [] => some .ragged
  | 3, [k] => some (.breakBefore k.toNat)
  | _, _ => none

/-- A job decided, where it is held and the action is valid (R65). -/
def decideJob (d : Desk) (j : JobId) (a : Action) (s : State) : State :=
  match s.jobs[j].state, s.jobs[j].held with
  | .held, some h =>
    if actionValid h a then (trySelect (decideHeld j h a s)).reply d 0x14 .ok [] else refuse d 0x14 .badValue s
  | _, _ => refuse d 0x14 .badState s

/-- DECIDE. -/
def requestDecide (d : Desk) (payload : List Byte) (s : State) : State :=
  match payload with
  | n :: t1 :: t2 :: a :: rest =>
    match actionForm a rest with
    | none => refuse d 0x14 .badValue s
    | some act =>
      match matchJob d n (word2 t1 t2) s with
      | none => refuse d 0x14 .noJob s
      | some j => decideJob d j act s
  | _ => refuse d 0x14 .badValue s

/-- A job returned for setting (R72). -/
def releaseJob (j : JobId) (s : State) : State :=
  let s1 := s.modJob j fun r =>
    { r with state := .queued, phase := .set, saved := some (freshContext s), composed := 0, exposed := 0,
             delivered := 0, sticky := Config.noExc, reverseClamped := false }
  { s1 with queue := { s1.queue with entry := s1.queue.entry.filter (· ≠ j) ++ [j] } }

/-- RELEASE. -/
def requestRelease (d : Desk) (payload : List Byte) (s : State) : State :=
  match payload with
  | [n, t1, t2] =>
    match matchJob d n (word2 t1 t2) s with
    | none => refuse d 0x15 .noJob s
    | some j =>
      if s.jobs[j].state = .awaitRelease then (trySelect (releaseJob j s)).reply d 0x15 .ok []
      else refuse d 0x15 .badState s
  | _ => refuse d 0x15 .badValue s

/-! ## TEST (R30, R77) -/

/-- The fonts MOUNTED, in position order. -/
def mountedFonts (s : State) : List Nat := allPositions.filterMap fun p => s.mount.pos[p].font

/-- The test kind a byte codes: 0 RULE, 1 ALIGN, 2 PRINT. -/
def testOf : Nat → Option TestKind
  | 0 => some .rule
  | 1 => some .align
  | 2 => some .print
  | _ => none

/-- The pattern a test job takes from the mount table as it stands (R161, R162, R183). -/
def testPattern (k : TestKind) (s : State) : TestPattern :=
  match k, mountedFonts s with
  | .rule, f :: _ => .rule f
  | .align, fs => .align fs
  | _, _ => .none

/-- A test job's record (R77). -/
def testJob (d : Desk) (k : TestKind) (s : State) : Job :=
  { Job.free with
    state := .queued, owner := d, mode := if k = .print then .proofOnly else .set, cls := .priority,
    cutAtEnd := decide (k ≠ .print), test := k, pattern := testPattern k s }

/-- The checks of TEST, in order (R30). -/
def testCheck (d : Desk) (k : TestKind) (s : State) : Option ReplyCode :=
  if k ≠ .print ∧ mountedFonts s = [] then some .badState else recordLimit d s

/-- TEST. -/
def requestTest (d : Desk) (payload : List Byte) (s : State) : State :=
  match payload with
  | [b] =>
    match testOf b.toNat with
    | none => refuse d 0x37 .badValue s
    | some k =>
      match testCheck d k s, freeRecord s with
      | some c, _ => refuse d 0x37 c s
      | none, none => refuse d 0x37 .full s
      | none, some j =>
        (trySelect (enterTail j (s.modJob j fun _ => testJob d k s))).reply d 0x37 .ok [byteOf j.val]
  | _ => refuse d 0x37 .badValue s

/-! ## QUERY-JOB (R39) -/

/-- The 22 bytes of QUERY-JOB's data. -/
def jobData (r : Job) : List Byte :=
  [byteOf r.state.code, byteOf r.owner.val] ++ beWord r.tag ++
  [byteOf (r.mode.code + 4 * r.phase.code), byteOf r.cls.code] ++
  be2 r.composed ++ be2 r.exposed ++ be2 r.delivered ++ be2 r.proofed ++ be2 r.proofLost ++
  [byteOf r.stickyByte, byteOf (match r.held with | some h => h.kind.code | none => 0)] ++
  be2 (match r.held with | some h => h.line | none => 0) ++
  [byteOf (r.waitedFont.getD 255), byteOf r.reason.code]

/-- QUERY-JOB. -/
def requestQueryJob (d : Desk) (payload : List Byte) (s : State) : State :=
  match payload with
  | [n] =>
    match jobOf n with
    | none => refuse d 0x17 .noJob s
    | some j =>
      if s.jobs[j].state = .free then refuse d 0x17 .noJob s else s.reply d 0x17 .ok (jobData s.jobs[j])
  | _ => refuse d 0x17 .badValue s

end Sys2Proof.Machine
end

