-- ==== Sys2Proof/Machine/Stored.lean ====
section
/-! DEFINITION. Stored settings (12): the settings by identifier, their ranges and adjustments (R9, R47, R164, R185), the
dictionary's edits (R130, R131), the regions of the serial memory, their validity, loading and saving (R184, R186). -/

namespace Sys2Proof.Machine

/-! ## Settings by identifier (table of R184) -/

/-- The range of a setting, none where the identifier names no setting. -/
def settingRange : Nat → Option (Nat × Nat)
  | 1 => some (0, 3)
  | 2 => some (0, 3)
  | 3 => some (0, 3)
  | 4 => some (0, 3)
  | 5 => some (1, 60)
  | 6 => some (0, 2047)
  | 7 => some (0, 2047)
  | 8 => some (0, 2047)
  | 9 => some (0, 2047)
  | 10 => some (0, 2047)
  | 11 => some (0, 2047)
  | 12 => some (1, 2048)
  | 13 => some (10, 1000)
  | 14 => some (0, 600)
  | 15 => some (0, 63)
  | 16 => some (6, 48)
  | 17 => some (0, 999)
  | 18 => some (720, 14400)
  | 19 => some (0, 14040)
  | 20 => some (0, 3)
  | 21 => some (0, 48)
  | 22 => some (0, 48)
  | 23 => some (0, 48)
  | 24 => some (0, 1)
  | 25 => some (1, 5)
  | 26 => some (2, 5)
  | 27 => some (0, 9)
  | 28 => some (0, 31)
  | 29 => some (0, 3)
  | 30 => some (100, 1000)
  | 31 => some (0, 7)
  | 32 => some (0, 255)
  | 33 => some (256, 1023)
  | 34 => some (1, 6)
  | 35 => some (0, 1023)
  | 36 => some (0, 1023)
  | 37 => some (720, 5760)
  | 38 => some (100, 1440)
  | 39 => some (100, 7200)
  | 40 => some (0, 7200)
  | 41 => some (1, 50)
  | _ => none

/-- The value of a setting, by identifier, as a SETTING-WRITE's reply carries it. -/
def Settings.get (t : Settings) : Nat → Nat
  | 1 => t.deskLevel[0]
  | 2 => t.deskLevel[1]
  | 3 => t.deskLevel[2]
  | 4 => t.deskLevel[3]
  | 5 => t.silence
  | 6 => t.storedMask[0].toNat
  | 7 => t.storedMask[1].toNat
  | 8 => t.storedMask[2].toNat
  | 9 => t.storedMask[3].toNat
  | 10 => t.fullReserve
  | 11 => t.low
  | 12 => t.high
  | 13 => t.holdTime
  | 14 => t.heldTimeout
  | 15 => t.house.font
  | 16 => t.house.size
  | 17 => t.house.leading
  | 18 => t.house.measure
  | 19 => t.house.indent
  | 20 => t.house.align.code
  | 21 => t.house.spMin
  | 22 => t.house.spNorm
  | 23 => t.house.spMax
  | 24 => t.house.hyphenation.toNat
  | 25 => t.house.minBefore
  | 26 => t.house.minAfter
  | 27 => t.house.ladder
  | 28 => t.house.mask.bits
  | 29 => t.house.rounding.code
  | 30 => t.confirmTimeout
  | 31 => t.retryLimit
  | 32 => t.soak
  | 33 => t.aref
  | 34 => t.avgK
  | 35 => t.weakThreshold
  | 36 => t.failThreshold
  | 37 => t.maxTake / 10
  | 38 => t.cutMargin
  | 39 => t.cutReserve
  | 40 => t.reverseLimit
  | 41 => t.lowThreshold
  | _ => 0

/-- A house default set, with the adjustments of the job code's own commands (R9). -/
def Format.setHouse (id n : Nat) (f : Format) : Format :=
  match id with
  | 15 => { f with font := n }
  | 16 => f.withSize n
  | 17 => f.withLeading n
  | 18 => f.withMeasure n
  | 19 => f.withIndent n
  | 20 => { f with align := alignOf n }
  | 21 => { f with spMin := n }.orderSpaces
  | 22 => { f with spNorm := n }.orderSpaces
  | 23 => { f with spMax := n }.orderSpaces
  | 24 => { f with hyphenation := decide (n ≠ 0) }
  | 25 => { f with minBefore := n }
  | 26 => { f with minAfter := n }
  | 27 => { f with ladder := n }
  | 28 => { f with mask := ExcSet.ofBits n }
  | 29 => { f with rounding := roundingOf n }
  | _ => f

/-- The order FULL-RESERVE ≤ LOW < HIGH restored (R47). -/
def Settings.orderThresholds (t : Settings) : Settings :=
  let low := max t.low t.fullReserve
  { t with low := low, high := max t.high (low + 1) }

/-- The cut reserve raised to the cut margin (R164). -/
def Settings.orderCut (t : Settings) : Settings := { t with cutReserve := max t.cutReserve t.cutMargin }

/-- A setting set to a value in its range, with its owner's adjustments (R185). -/
def Settings.set (id n : Nat) (t : Settings) : Settings :=
  match id with
  | 1 => { t with deskLevel := t.deskLevel.set 0 n }
  | 2 => { t with deskLevel := t.deskLevel.set 1 n }
  | 3 => { t with deskLevel := t.deskLevel.set 2 n }
  | 4 => { t with deskLevel := t.deskLevel.set 3 n }
  | 5 => { t with silence := n }
  | 6 => { t with storedMask := t.storedMask.set 0 (BitVec.ofNat 11 n) }
  | 7 => { t with storedMask := t.storedMask.set 1 (BitVec.ofNat 11 n) }
  | 8 => { t with storedMask := t.storedMask.set 2 (BitVec.ofNat 11 n) }
  | 9 => { t with storedMask := t.storedMask.set 3 (BitVec.ofNat 11 n) }
  | 10 => { t with fullReserve := n }.orderThresholds
  | 11 => { t with low := n }.orderThresholds
  | 12 => { t with high := n }.orderThresholds
  | 13 => { t with holdTime := n }
  | 14 => { t with heldTimeout := n }
  | 30 => { t with confirmTimeout := n }
  | 31 => { t with retryLimit := n }
  | 32 => { t with soak := n }
  | 33 => { t with aref := n }
  | 34 => { t with avgK := n }
  | 35 => { t with weakThreshold := n }
  | 36 => { t with failThreshold := n }
  | 37 => { t with maxTake := 10 * n }
  | 38 => { t with cutMargin := n }.orderCut
  | 39 => { t with cutReserve := n }.orderCut
  | 40 => { t with reverseLimit := n }
  | 41 => { t with lowThreshold := n }
  | _ => { t with house := t.house.setHouse id n }

/-- A write of a setting: the value is clamped to the range, then set (R185). -/
def Settings.write (id : Nat) (v : Int) (t : Settings) : Settings :=
  match settingRange id with
  | some (lo, hi) => t.set id (clampInt lo hi v).toNat
  | none => t

/-! ## Trims and bases (R29, R147) -/

/-- A signed trim or a base clamped to the range of its kind. -/
def clampTrim (lo hi : Int) (v : Int) : Int := clampInt lo hi v

/-- The stored trims clamped to their ranges. -/
def Trims.clamped (t : Trims) : Trims :=
  { lens := t.lens.map (clampTrim (-200) 200), base := t.base.map (clampTrim (-50) 50), expo := t.expo.map (clampNat 1 255) }

/-! ## The dictionary (R128, R130, R131) -/

/-- The count of entries in use. -/
def dictCount (d : Dictionary) : Nat := (d.toList.map List.length).sum

/-- A word of a request is valid: 2 to 24 bytes, each a letter. -/
def validWord (w : List Byte) : Bool := decide (2 ≤ w.length ∧ w.length ≤ 24) && w.all isLetter

/-- A break list is valid for a word of a length: at most 12 positions, strictly increasing, each from 1 to the length
less 1. -/
def validBreaks (len : Nat) (bs : List Nat) : Bool :=
  decide (bs.length ≤ 12) && increasing bs && bs.all fun b => decide (1 ≤ b ∧ b < len)

/-- A word in lower case. -/
def foldWord (w : List Byte) : List Byte := w.map fold

/-- The entry of a word removed from its chain. -/
def dictRemove (w : List Byte) (d : Dictionary) : Dictionary :=
  put d (bucketOf w) (d[bucketOf w].filter fun e => decide (e.word ≠ w))

/-- An entry placed at the head of its word's chain. -/
def dictPush (e : DictEntry) (d : Dictionary) : Dictionary := put d (bucketOf e.word) (e :: d[bucketOf e.word])

/-- An entry restored at start-up, at the tail of its word's chain, unless it breaks the rules of DICT-ADD, is a second
entry of its word, or finds the pool full (R184). -/
def restoreEntry (p : Dictionary × Nat) (e : DictEntry) : Dictionary × Nat :=
  let (d, n) := p
  let w := foldWord e.word
  if validWord e.word && validBreaks w.length e.breaks && (lookupWord d w).isNone && decide (n < Config.maxEntries) then
    (put d (bucketOf w) (d[bucketOf w] ++ [{ e with word := w }]), n + 1)
  else (d, n)

/-- A dictionary restored from the stored chains, bucket by bucket. -/
def restoreDict (chains : Dictionary) : Dictionary :=
  (chains.toList.flatten.foldl restoreEntry (Config.emptyDictionary, 0)).1

/-! ## Descriptors and width tables at start-up (R83, R184) -/

/-- Every field of a descriptor is in its range (table of "The font directory"). -/
def Descriptor.inRange : Descriptor → Bool
  | .empty _ => true
  | .font _ level strip table density substitute _ _ =>
    decide (level ≤ 3 ∧ 1 ≤ strip ∧ strip ≤ 255 ∧ table ≤ 23 ∧ 64 ≤ density ∧ density ≤ 192 ∧ 0x21 ≤ substitute ∧
      substitute ≤ 0x7F)
  | .gate level target size leading _ =>
    decide (level ≤ 3 ∧ target ≤ 63) && (size.all fun z => decide (6 ≤ z ∧ z ≤ 48)) &&
      leading.all fun n => decide (n ≤ 999)

/-- The strip code of a font descriptor. -/
def Descriptor.strip : Descriptor → Option Nat
  | .font _ _ c _ _ _ _ _ => some c
  | _ => none

/-- Some font descriptor other than number `n` holds a strip code. -/
def stripHeld (ds : Vector Descriptor 64) (n : Fin 64) (c : Nat) : Bool :=
  (List.finRange 64).any fun i => decide (i ≠ n) && decide (ds[i].strip = some c)

/-- A stored descriptor as loaded: EMPTY with a field out of range, or with a strip code that a lower-numbered font
descriptor holds. `ds` holds the descriptors loaded so far. -/
def loadDescriptor (stored ds : Vector Descriptor 64) (n : Fin 64) : Vector Descriptor 64 :=
  let d := stored[n]
  let taken := match d.strip with
    | some c => stripHeld ds n c
    | none => false
  if d.inRange && !taken then put ds n d else ds

def loadDescriptors (stored : Vector Descriptor 64) : Vector Descriptor 64 :=
  (List.finRange 64).foldl (loadDescriptor stored) Config.emptyDirectory.desc

/-- A width table as loaded: an unloaded one has every entry 0 (R79), and a width is at most 96. -/
def loadTable (t : WidthTable) : WidthTable :=
  if t.loaded then { t with widths := t.widths.map (min 96) } else ⟨Vector.replicate 96 0, false⟩

/-! ## Regions (R184) -/

/-- The 16-bit sum of a region's content bytes. -/
def sum16 (bs : List Byte) : BitVec 16 := bs.foldl (fun a b => a + b.setWidth 16) 0

/-- A region is valid: its check word is the complement of its sum word, and its sum word is the sum of its bytes. -/
def regionValid (sum check : BitVec 16) (bytes : List Byte) : Bool := decide (check = ~~~sum) && decide (sum = sum16 bytes)

/-- The settings as loaded from stored values: each clamped and adjusted as a write of it, in identifier order. -/
def loadSettings (values : Vector Int 41) : Settings :=
  (List.finRange 41).foldl (fun t i => t.write (i.val + 1) values[i]) Config.settings

/-- What the settings region gives at start-up. -/
structure LoadedSettings where
  settings : Settings
  dir : Directory
  trims : Trims
  deriving DecidableEq, Repr

/-- The settings region loaded, or the defaults (R184). -/
def loadSettingsRegion (r : SettingsRegion) : LoadedSettings :=
  if regionValid r.sum r.check (Config.settingsBytes r.contents) then
    { settings := loadSettings r.contents.values
      dir := { desc := loadDescriptors r.contents.desc, tables := r.contents.tables.map loadTable }
      trims := r.contents.trims.clamped }
  else { settings := Config.settings, dir := Config.emptyDirectory, trims := Config.trims }

/-- The dictionary region loaded, or an empty dictionary (R184). -/
def loadDictRegion (r : DictRegion) : Dictionary :=
  if regionValid r.sum r.check (Config.dictionaryBytes r.contents) then restoreDict r.contents.chains
  else Config.emptyDictionary

/-! ## Saving (R186) -/

/-- The contents of the settings region as they stand. -/
def settingsImage (s : State) : SettingsImage :=
  { values := Vector.ofFn fun i => (s.settings.get (i.val + 1) : Int), desc := s.dir.desc, tables := s.dir.tables
    trims := s.imaging.written }

/-- The contents of the dictionary region as they stand. -/
def dictImage (s : State) : DictImage := { count := dictCount s.dict, chains := s.dict }

/-- A settings save begun: the contents are copied, and the region's sum and check words are written as 0 (R186). -/
def beginSaveSettings (s : State) : State :=
  { s with serial := { s.serial with
      settings := { s.serial.settings with sum := 0, check := 0 }, save := some (.settings (settingsImage s)) } }

/-- A dictionary save begun. -/
def beginSaveDictionary (s : State) : State :=
  { s with serial := { s.serial with
      dict := { s.serial.dict with sum := 0, check := 0 }, save := some (.dictionary (dictImage s)) } }

/-- The save in flight has written its check word: the region holds the contents copied, their sum and its complement. -/
def endSave (s : State) : State :=
  match s.serial.save with
  | none => s
  | some (.settings m) =>
    let sum := sum16 (Config.settingsBytes m)
    { s with serial := { s.serial with settings := { contents := m, sum := sum, check := ~~~sum }, save := none } }
  | some (.dictionary m) =>
    let sum := sum16 (Config.dictionaryBytes m)
    { s with serial := { s.serial with dict := { contents := m, sum := sum, check := ~~~sum }, save := none } }

/-- A settings save is in flight. -/
def savingSettings (s : State) : Bool :=
  match s.serial.save with
  | some (.settings _) => true
  | _ => false

/-- A dictionary save is in flight. -/
def savingDictionary (s : State) : Bool :=
  match s.serial.save with
  | some (.dictionary _) => true
  | _ => false

/-! ## Start-up (R187) -/

/-- The controller right after start-up, its serial memory as it stands with any save ended where it had got to; the
commands that wait are kept. -/
def startUp (s : State) : State :=
  let l := loadSettingsRegion s.serial.settings
  let t := l.settings
  { links := #v[Link.start t.storedMask[0], Link.start t.storedMask[1], Link.start t.storedMask[2],
                Link.start t.storedMask[3]]
    store := Store.start
    jobs := Vector.replicate 32 Job.free
    queue := { entry := [], resume := none, rerun := [] }
    dir := l.dir
    mount := MountTable.start
    engine := Engine.start
    dict := loadDictRegion s.serial.dict
    buffer := []
    imaging := Imaging.start l.trims t
    film := Film.start
    proof := ProofChannel.start
    settings := t
    serial := { s.serial with save := none }
    port := startUpCommands
    pending := s.pending }

end Sys2Proof.Machine
end

