-- ==== Sys2Proof/Machine/MachineRequests.lean ====
section
/-! DEFINITION. The machine requests (R28 to R30, R38): PROBE, QUERY-MACHINE, the dictionary requests (R130 to R132), the
writes of commissioning state (R83, R84, R29, R185), SAVE, NOTICE-MASK, CUT (R172), PROOF-CONFIG and PROOF-ENABLE (R178),
and LINK-RESET (R35). -/

namespace Sys2Proof.Machine

/-! ## PROBE (R82) -/

/-- The number of the resolved descriptor: the target of a gate, else the number itself. -/
def resolvedNumber (s : State) (n : Nat) : Nat :=
  match descAt s n with
  | some (.gate _ target _ _ _) => target
  | _ => n

/-- The reason code of a PROBE, and whether the font is usable: tests 1 to 4 of R80. -/
def probeReason (s : State) (n level : Nat) : Nat :=
  match accessTests s n level with
  | .pass .. => 0
  | .fontRange => 1
  | .fontDenied => 2
  | .wait _ => 0

/-- The 14 bytes of PROBE's data. -/
def probeData (s : State) (n level : Nat) : List Byte :=
  let why := probeReason s n level
  let usable : Byte := if why = 0 then 1 else 0
  if n < 64 then
    let r := resolvedNumber s n
    let code := match descAt s r with
      | some d => d.code
      | none => 0
    [usable, byteOf why, byteOf r, byteOf code] ++ (nameAt s r).toList ++ [byteOf (posNumber (mountedAt s r)), 0]
  else [usable, byteOf why, 0xFF, 0] ++ Config.noName.toList ++ [0, 0]

/-- PROBE. -/
def requestProbe (d : Desk) (payload : List Byte) (s : State) : State :=
  match payload with
  | [n] => s.reply d 0x16 .ok (probeData s n.toNat s.settings.deskLevel[d])
  | _ => refuse d 0x16 .badValue s

/-! ## QUERY-MACHINE (R38) -/

/-- The three bytes of one turret position. -/
def positionData (p : Position) : List Byte :=
  [byteOf p.st.code, byteOf (p.font.getD 255), byteOf p.pins]

/-- The state of the proof channel as QUERY-MACHINE reports it (R177). -/
def proofCode (s : State) : Nat :=
  if s.proof.enable then
    match s.proof.printer with
    | .paperOut => 3
    | .fault => 4
    | .ready => if (proofRecord s).isSome then 2 else 1
  else 0

/-- The 34 bytes of QUERY-MACHINE's data. -/
def machineData (d : Desk) (s : State) : List Byte :=
  be2 s.store.freeCount ++ [byteOf (inUse s)] ++ (allPositions.flatMap fun p => positionData s.mount.pos[p]) ++
  [byteOf s.imaging.st.code, byteOf s.imaging.stop.code] ++ be3 s.film.remaining ++
  [byteOf s.film.take.length] ++ be2 s.film.takeLength ++ [byteOf (proofCode s)] ++
  be2 s.links[d].badFrames ++ be2 s.links[d].flags.toNat

/-- QUERY-MACHINE: the notice flags are copied into the reply, then cleared. -/
def requestQueryMachine (d : Desk) (payload : List Byte) (s : State) : State :=
  match payload with
  | [] => (s.modLink d fun l => { l with flags := 0 }).reply d 0x18 .ok (machineData d s)
  | _ => refuse d 0x18 .badValue s

/-! ## The dictionary requests -/

/-- A word's payload: a length byte and that many letters, and what follows them. -/
def wordForm : List Byte → Option (List Byte × List Byte)
  | w :: r => if w.toNat ≤ r.length then some (r.take w.toNat, r.drop w.toNat) else none
  | [] => none

/-- DICT-ADD's payload: a word, a break count, that many positions, and no more (R22). -/
def addForm (payload : List Byte) : Option (List Byte × List Nat) :=
  match wordForm payload with
  | some (w, b :: ps) => if b.toNat = ps.length then some (w, ps.map (·.toNat)) else none
  | _ => none

/-- The payload of DICT-DELETE and DICT-LOOKUP: a word and no more. -/
def oneWordForm (payload : List Byte) : Option (List Byte) :=
  match wordForm payload with
  | some (w, []) => some w
  | _ => none

/-- The reply to a DICT-ADD taken: replaced, and the count in use after it. -/
def addReply (d : Desk) (replaced : Byte) (s : State) : State :=
  s.reply d 0x20 .ok (replaced :: be2 (dictCount s.dict))

/-- DICT-ADD (R130). -/
def requestDictAdd (d : Desk) (payload : List Byte) (s : State) : State :=
  match addForm payload with
  | none => refuse d 0x20 .badValue s
  | some (w, bs) =>
    if savingDictionary s then refuse d 0x20 .busy s
    else if !(validWord w && validBreaks w.length bs) then refuse d 0x20 .badValue s
    else
      let word := foldWord w
      let e : DictEntry := { word := word, breaks := bs, writer := d }
      if (lookupWord s.dict word).isSome then addReply d 1 { s with dict := dictPush e (dictRemove word s.dict) }
      else if Config.maxEntries ≤ dictCount s.dict then refuse d 0x20 .full s
      else addReply d 0 { s with dict := dictPush e s.dict }

/-- DICT-DELETE (R131). -/
def requestDictDelete (d : Desk) (payload : List Byte) (s : State) : State :=
  match oneWordForm payload with
  | none => refuse d 0x21 .badValue s
  | some w =>
    if savingDictionary s then refuse d 0x21 .busy s
    else if !validWord w then refuse d 0x21 .badValue s
    else
      let word := foldWord w
      if (lookupWord s.dict word).isSome then
        let dict := dictRemove word s.dict
        { s with dict := dict }.reply d 0x21 .ok (be2 (dictCount dict))
      else refuse d 0x21 .absent s

/-- The data of a DICT-LOOKUP that finds an entry (R132). -/
def lookupData (e : DictEntry) : List Byte :=
  let rules := rulePositions e.word
  [byteOf (hashWord e.word), byteOf e.writer.val, byteOf e.breaks.length] ++ e.breaks.map byteOf ++
  [byteOf rules.length] ++ rules.map byteOf

/-- DICT-LOOKUP (R132). -/
def requestDictLookup (d : Desk) (payload : List Byte) (s : State) : State :=
  match oneWordForm payload with
  | none => refuse d 0x22 .badValue s
  | some w =>
    if !validWord w then refuse d 0x22 .badValue s
    else
      match lookupWord s.dict (foldWord w) with
      | none => refuse d 0x22 .absent s
      | some e => s.reply d 0x22 .ok (lookupData e)

/-! ## DIR-WRITE and WIDTH-WRITE (R83, R84) -/

/-- The kind a type byte of DIR-WRITE codes: 1 TEXT, 2 DISPLAY, 3 PI. -/
def kindOf : Nat → Option FontKind
  | 1 => some .textFont
  | 2 => some .display
  | 3 => some .pi
  | _ => none

/-- A font's fields after its type byte (table of request frames). -/
def fontForm (k : FontKind) : List Byte → Option Descriptor
  | [level, strip, table, density, sub, hyph, a, b, c, d, e, f, g, h] =>
    if hyph.toNat ≤ 1 then
      some (.font k level.toNat strip.toNat table.toNat density.toNat sub.toNat (decide (hyph.toNat = 1))
        #v[a, b, c, d, e, f, g, h])
    else none
  | _ => none

/-- A gate's fields after its type byte: size 0 and leading 0xFFFF are none. -/
def gateForm : List Byte → Option Descriptor
  | [level, target, size, l1, l2, a, b, c, d, e, f, g, h] =>
    some (.gate level.toNat target.toNat (if size = 0 then none else some size.toNat)
      (if nat2 l1 l2 = 65535 then none else some (nat2 l1 l2)) #v[a, b, c, d, e, f, g, h])
  | _ => none

/-- The descriptor a DIR-WRITE's payload gives after its number, none where the form is not as the table gives. -/
def dirForm : List Byte → Option Descriptor
  | t :: rest =>
    match t.toNat, kindOf t.toNat with
    | 0, _ => if rest = [] then some (.empty Config.noName) else none
    | 4, _ => gateForm rest
    | _, some k => fontForm k rest
    | _, none => none
  | [] => none

/-- The strip code of a written font is held by another font descriptor (R83, check 3). -/
def stripTaken (s : State) (n : Fin 64) (x : Descriptor) : Bool :=
  match x.strip with
  | some c => stripHeld s.dir.desc n c
  | none => false

/-- Descriptor `n` is now a font that is MOUNTED at some position (R83, check 4). -/
def mountedFont (s : State) (n : Fin 64) : Bool := s.dir.desc[n].strip.isSome && isMounted s n.val

/-- The checks of DIR-WRITE from the second on, in order (R83); descriptor `n` is that of a number up to 63. Check 4 refuses
every write over a MOUNTED font, a gate's too, so that a MOUNTED position keeps its font's descriptor (R83, R88, R147); a
DIR-WRITE of a number that is a gate is not refused IN-USE (R29; DEDUCED, assumption 42). -/
def dirCheck (s : State) (n : Fin 64) (x : Descriptor) : Option ReplyCode :=
  if !x.inRange then some .badValue
  else if stripTaken s n x then some .badValue
  else if mountedFont s n then some .inUse
  else none

/-- A descriptor replaced, and what the mount table does after it: jobs awaiting the number are released, and the UNKNOWN
and DUPLICATE positions are classified again (R83, R88, R95). -/
def replaceDescriptor (n : Fin 64) (x : Descriptor) (s : State) : State :=
  reclassify (releaseWaiters n.val { s with dir := { s.dir with desc := put s.dir.desc n x } })

/-- DIR-WRITE (R83). -/
def requestDirWrite (d : Desk) (payload : List Byte) (s : State) : State :=
  match payload with
  | n :: rest =>
    match dirForm rest with
    | none => refuse d 0x30 .badValue s
    | some x =>
      if savingSettings s then refuse d 0x30 .busy s
      else if h : n.toNat < 64 then
        match dirCheck s ⟨n.toNat, h⟩ x with
        | some c => refuse d 0x30 c s
        | none => (settle s.store.freeCount (replaceDescriptor ⟨n.toNat, h⟩ x s)).reply d 0x30 .ok []
      else refuse d 0x30 .badValue s
  | [] => refuse d 0x30 .badValue s

/-- Some font that uses a table is MOUNTED. -/
def tableMounted (s : State) (t : Nat) : Bool :=
  allPositions.any fun p =>
    match s.mount.pos[p].font with
    | some f =>
      match descAt s f with
      | some (.font _ _ _ k _ _ _ _) => decide (k = t)
      | _ => false
    | none => false

/-- A run of entries written from entry `i` on. -/
def writeWidths : Nat → List Byte → Vector Nat 96 → Vector Nat 96
  | _, [], v => v
  | i, w :: ws, v => writeWidths (i + 1) ws (if h : i < 96 then v.set i w.toNat h else v)

/-- A run of widths written in a table, which is then loaded (R79, R84). -/
def writeTable (t : Fin 24) (first : Nat) (ws : List Byte) (s : State) : State :=
  let old := s.dir.tables[t]
  { s with dir := { s.dir with tables := put s.dir.tables t ⟨writeWidths (first - 32) ws old.widths, true⟩ } }

/-- WIDTH-WRITE (R84). -/
def requestWidthWrite (d : Desk) (payload : List Byte) (s : State) : State :=
  match payload with
  | t :: first :: ws =>
    if 1 ≤ ws.length ∧ ws.length ≤ 64 ∧ 0x20 ≤ first.toNat ∧ first.toNat ≤ 0x7F then
      if savingSettings s then refuse d 0x31 .busy s
      else if h : t.toNat < 24 then
        if (ws.any fun w => decide (96 < w.toNat)) = true ∨ 0x80 < first.toNat + ws.length then refuse d 0x31 .badValue s
        else if tableMounted s t.toNat && s.dir.tables[t.toNat].loaded then refuse d 0x31 .inUse s
        else (writeTable ⟨t.toNat, h⟩ first.toNat ws s).reply d 0x31 .ok []
      else refuse d 0x31 .badValue s
    else refuse d 0x31 .badValue s
  | _ => refuse d 0x31 .badValue s

/-! ## TRIM-WRITE and SETTING-WRITE (R29, R185) -/

/-- The written trims replaced, with the value taken in the reply. -/
def takeTrim (d : Desk) (t : Trims) (v : Int) (s : State) : State :=
  (s.modImg fun i => { i with written := t }).reply d 0x32 .ok (be2Int v)

/-- A lens trim written, for lens 1 to 12. -/
def writeLensTrim (d : Desk) (index : Nat) (v : Int) (s : State) : State :=
  if h : 1 ≤ index ∧ index ≤ 12 then
    let w := clampTrim (-200) 200 v
    let t := s.imaging.written
    takeTrim d { t with lens := t.lens.set (index - 1) w } w s
  else refuse d 0x32 .badValue s

/-- A baseline trim written, for position 1 to 6. -/
def writeBaselineTrim (d : Desk) (index : Nat) (v : Int) (s : State) : State :=
  if h : 1 ≤ index ∧ index ≤ 6 then
    let w := clampTrim (-50) 50 v
    let t := s.imaging.written
    takeTrim d { t with base := t.base.set (index - 1) w } w s
  else refuse d 0x32 .badValue s

/-- An exposure base written, for lens 1 to 12. -/
def writeExposureBase (d : Desk) (index : Nat) (v : Int) (s : State) : State :=
  if h : 1 ≤ index ∧ index ≤ 12 then
    let w := clampTrim 1 255 v
    let t := s.imaging.written
    takeTrim d { t with expo := t.expo.set (index - 1) w.toNat } w s
  else refuse d 0x32 .badValue s

/-- TRIM-WRITE: BUSY while a settings save is in flight is answered before the index check (R29). -/
def requestTrimWrite (d : Desk) (payload : List Byte) (s : State) : State :=
  match payload with
  | [kind, index, v1, v2] =>
    if 2 < kind.toNat then refuse d 0x32 .badValue s
    else if savingSettings s then refuse d 0x32 .busy s
    else
      match kind.toNat with
      | 0 => writeLensTrim d index.toNat (int2 v1 v2) s
      | 1 => writeBaselineTrim d index.toNat (int2 v1 v2) s
      | _ => writeExposureBase d index.toNat (int2 v1 v2) s
  | _ => refuse d 0x32 .badValue s

/-- The store's decision after a write of FULL-RESERVE, LOW or HIGH (R51). -/
def afterSetting (id : Nat) (s : State) : State := if 10 ≤ id ∧ id ≤ 12 then flowAfterWrite s else s

/-- SETTING-WRITE (R185). -/
def requestSettingWrite (d : Desk) (payload : List Byte) (s : State) : State :=
  match payload with
  | [i, v1, v2] =>
    if savingSettings s then refuse d 0x33 .busy s
    else if (settingRange i.toNat).isNone then refuse d 0x33 .badValue s
    else
      let t := s.settings.write i.toNat (int2 v1 v2)
      (afterSetting i.toNat { s with settings := t }).reply d 0x33 .ok (be2 (t.get i.toNat))
  | _ => refuse d 0x33 .badValue s

/-! ## SAVE, NOTICE-MASK, CUT (R30) -/

/-- SAVE (R186). -/
def requestSave (d : Desk) (payload : List Byte) (s : State) : State :=
  match payload with
  | [region] =>
    if 1 < region.toNat then refuse d 0x34 .badValue s
    else if s.serial.save.isSome then refuse d 0x34 .busy s
    else if region = 0 then (beginSaveSettings s).reply d 0x34 .ok []
    else (beginSaveDictionary s).reply d 0x34 .ok []
  | _ => refuse d 0x34 .badValue s

/-- NOTICE-MASK. -/
def requestNoticeMask (d : Desk) (payload : List Byte) (s : State) : State :=
  match payload with
  | [a, b] =>
    let m := maskOf (word2 a b)
    (s.modLink d fun l => { l with mask := m }).reply d 0x35 .ok (be2 m.toNat)
  | _ => refuse d 0x35 .badValue s

/-- An ask for one cut, dismissed where the take is empty (R172); an IDLE sequencer carries it out at once (R146). -/
def askCut (s : State) : State :=
  if s.film.take.isEmpty then s
  else settle s.store.freeCount (s.modFilm fun f => { f with pendingCut := true })

/-- CUT. -/
def requestCut (d : Desk) (payload : List Byte) (s : State) : State :=
  match payload with
  | [] => (askCut s).reply d 0x36 .ok []
  | _ => refuse d 0x36 .badValue s

/-! ## The proof channel's requests (R178) -/

/-- PROOF-CONFIG: a header or marks byte that is not zero means on (R30, R178). -/
def requestProofConfig (d : Desk) (payload : List Byte) (s : State) : State :=
  match payload with
  | [n, h, m] =>
    if s.proof.enable then refuse d 0x38 .enabled s
    else
      let lines := clampNat 10 99 n.toNat
      let header := decide (h ≠ 0)
      let marks := decide (m ≠ 0)
      (s.modProof fun c => { c with linesPerPage := lines, header := header, marks := marks }).reply d 0x38 .ok
        [byteOf lines, byteOf header.toNat, byteOf marks.toNat]
  | _ => refuse d 0x38 .badValue s

/-- The channel enabled; a channel that was off begins a fresh page. -/
def enableProof (s : State) : State :=
  if s.proof.enable then s
  else settle s.store.freeCount (s.modProof fun c => { c with enable := true, newPage := true })

/-- The channel disabled; a record in hand is given back. -/
def disableProof (s : State) : State :=
  if s.proof.enable then
    settle s.store.freeCount (giveBackPrinting (s.modProof fun c => { c with enable := false }))
  else s

/-- PROOF-ENABLE. -/
def requestProofEnable (d : Desk) (payload : List Byte) (s : State) : State :=
  match payload with
  | [b] =>
    if 1 < b.toNat then refuse d 0x39 .badValue s
    else if b = 1 then (enableProof s).reply d 0x39 .ok []
    else (disableProof s).reply d 0x39 .ok []
  | _ => refuse d 0x39 .badValue s

/-! ## LINK-RESET (R35) -/

/-- The link's own part of a reset (R35, and the LINK-RESET column of "Link state"): receiver in HUNT, no partial frame and
no kept request, unsent frames dropped, hold flag clear, timers stopped, flags and bad-frame counter clear. A frame in
transmission is sent to its end. -/
def Link.cleared (l : Link) : Link :=
  { l with rx := .hunt, kept := none, queue := [], slot := none, hold := false, holdTimer := none, silenceTimer := none, flags := 0,
           badFrames := 0 }

/-- What a link reset and a break condition do alike (R35, R36). -/
def resetLink (d : Desk) (s : State) : State := abandonReceiving d .linkReset (s.modLink d Link.cleared)

/-- LINK-RESET: the reply OK is queued last. -/
def requestLinkReset (d : Desk) (payload : List Byte) (s : State) : State :=
  match payload with
  | [] => (resetLink d s).reply d 0x3F .ok []
  | _ => refuse d 0x3F .badValue s

end Sys2Proof.Machine
end

