-- ==== Sys2Proof/Machine/Receiver.lean ====
section
/-! DEFINITION. The receiving side of a link: assembling frames (R21), taking a good frame (R22, R23), keeping and
dropping it, restarting the silence timer (R33); and frames as the bytes that carry them (02, "The frame envelope"). -/

namespace Sys2Proof.Machine

/-! ## Requests taken (R22, R23) -/

/-- The highest desk level that may send a request of a type, none where the type is not one of the request types. -/
def requestLevel (type : Byte) : Option Nat :=
  match type.toNat with
  | 0x10 => some 3
  | 0x11 => some 3
  | 0x12 => some 3
  | 0x13 => some 3
  | 0x14 => some 3
  | 0x15 => some 3
  | 0x16 => some 3
  | 0x17 => some 3
  | 0x18 => some 3
  | 0x20 => some 1
  | 0x21 => some 1
  | 0x22 => some 3
  | 0x30 => some 0
  | 0x31 => some 0
  | 0x32 => some 0
  | 0x33 => some 0
  | 0x34 => some 0
  | 0x35 => some 3
  | 0x36 => some 0
  | 0x37 => some 0
  | 0x38 => some 0
  | 0x39 => some 0
  | 0x3F => some 3
  | _ => none

/-- The request of a type, past the checks of type and level. -/
def handleRequest (d : Desk) (type : Byte) (payload : List Byte) (s : State) : State :=
  match type.toNat with
  | 0x10 => requestOpen d payload s
  | 0x11 => requestText d payload s
  | 0x12 => requestClose d payload s
  | 0x13 => requestCancel d payload s
  | 0x14 => requestDecide d payload s
  | 0x15 => requestRelease d payload s
  | 0x16 => requestProbe d payload s
  | 0x17 => requestQueryJob d payload s
  | 0x18 => requestQueryMachine d payload s
  | 0x20 => requestDictAdd d payload s
  | 0x21 => requestDictDelete d payload s
  | 0x22 => requestDictLookup d payload s
  | 0x30 => requestDirWrite d payload s
  | 0x31 => requestWidthWrite d payload s
  | 0x32 => requestTrimWrite d payload s
  | 0x33 => requestSettingWrite d payload s
  | 0x34 => requestSave d payload s
  | 0x35 => requestNoticeMask d payload s
  | 0x36 => requestCut d payload s
  | 0x37 => requestTest d payload s
  | 0x38 => requestProofConfig d payload s
  | 0x39 => requestProofEnable d payload s
  | 0x3F => requestLinkReset d payload s
  | _ => refuse d type .unknown s

/-- A request taken: the type is checked, then the desk level (R22, R23). -/
def takeRequest (d : Desk) (f : Frame) (s : State) : State :=
  match requestLevel f.type with
  | none => refuse d f.type .unknown s
  | some level =>
    if level < s.settings.deskLevel[d] then refuse d f.type .denied s else handleRequest d f.type f.payload s

/-! ## Good and bad frames (R21, R22, R33) -/

/-- The bad-frame counter incremented; it saturates at 65,535. -/
def countBad (d : Desk) (s : State) : State :=
  s.modLink d fun l => { l with badFrames := satSucc Config.max16 l.badFrames }

/-- A running silence timer restarted with the silence time. -/
def restartSilence (d : Desk) (s : State) : State :=
  s.modLink d fun l =>
    { l with silenceTimer := if l.silenceTimer.isSome then some s.settings.silence else none }

/-- A good frame: it restarts the silence timer, then it is dropped while another is kept, kept while the queue holds 16
frames, and else taken at once (R22). -/
def goodFrame (d : Desk) (f : Frame) (s : State) : State :=
  let s1 := restartSilence d s
  if s1.links[d].kept.isSome then countBad d s1
  else if Config.queueSize ≤ s1.links[d].queue.length then s1.modLink d fun l => { l with kept := some f }
  else takeRequest d f s1

/-- The kept request taken, where a frame has left the queue (R22). -/
def takeKept (d : Desk) (s : State) : State :=
  match s.links[d].kept with
  | none => s
  | some f =>
    if s.links[d].queue.length < Config.queueSize then takeRequest d f (s.modLink d fun l => { l with kept := none })
    else s

/-! ## The receiver (R21) -/

/-- The receiver's phase set. -/
def setReceiver (d : Desk) (r : Receiver) (s : State) : State := s.modLink d fun l => { l with rx := r }

/-- A frame complete: good where its bytes sum to 0, else bad. `body` is the type, the payload and the check byte. -/
def frameComplete (d : Desk) (n : Nat) (body : List Byte) (s : State) : State :=
  let s1 := setReceiver d .hunt s
  if byteOf n + sumBytes body = 0 then
    match body with
    | type :: rest => goodFrame d ⟨type, rest.dropLast⟩ s1
    | [] => countBad d s1
  else countBad d s1

/-- One byte arriving on a link's receive line; none is received while the line stays at spacing (R21, R36). -/
def receiveByte (d : Desk) (s : State) (b : Byte) : State :=
  if s.links[d].spacing then s
  else
    match s.links[d].rx with
    | .hunt => if b = 0xA5 then setReceiver d .length s else s
    | .length =>
      if 1 ≤ b.toNat ∧ b.toNat ≤ 72 then setReceiver d (.body b.toNat []) s
      else countBad d (setReceiver d .hunt s)
    | .body n got =>
      if got.length < n then setReceiver d (.body n (got ++ [b])) s else frameComplete d n (got ++ [b]) s

/-- Bytes arriving on a link, in order. -/
def receiveBytes (d : Desk) (bs : List Byte) (s : State) : State := bs.foldl (receiveByte d) s

/-! ## Frames as bytes -/

/-- A frame arriving on a link, byte by byte. -/
def receiveFrame (d : Desk) (type : Byte) (payload : List Byte) (s : State) : State :=
  receiveBytes d (envelope type payload) s

end Sys2Proof.Machine
end

