-- ==== Sys2Proof/Machine/RequestCommands.lean ====
section
/-! DEFINITION. The meanings of the request commands: each is a frame arriving on the desk's link, which the receiver
assembles (R21) and the link takes, keeps or drops (R22); the request's own entry gives the rest. -/

namespace Sys2Proof.Machine

/-- What a command answers: every command has a next state. -/
abbrev Answer := Host.Outcome State Fault Refusal

/-- OPEN (R25, R55). -/
def execOpen (d : Desk) (payload : List Byte) (s : State) : Answer := .next (receiveFrame d 0x10 payload s)

/-- TEXT (R26, R43, R44). -/
def execText (d : Desk) (payload : List Byte) (s : State) : Answer := .next (receiveFrame d 0x11 payload s)

/-- CLOSE (R27, R57). -/
def execClose (d : Desk) (payload : List Byte) (s : State) : Answer := .next (receiveFrame d 0x12 payload s)

/-- CANCEL (R27, R73, R74). -/
def execCancel (d : Desk) (payload : List Byte) (s : State) : Answer := .next (receiveFrame d 0x13 payload s)

/-- The payload of DECIDE: job, tag, action, and what follows. -/
def decidePayload (job : Byte) (tag : BitVec 16) (action : Byte) (rest : List Byte) : List Byte :=
  [job] ++ beWord tag ++ [action] ++ rest

/-- DECIDE with action PROPOSED (R65). -/
def execDecideProposed (d : Desk) (job : Byte) (tag : BitVec 16) (rest : List Byte) (s : State) : Answer :=
  .next (receiveFrame d 0x14 (decidePayload job tag 0 rest) s)

/-- DECIDE with action DEFAULT (R65). -/
def execDecideDefault (d : Desk) (job : Byte) (tag : BitVec 16) (rest : List Byte) (s : State) : Answer :=
  .next (receiveFrame d 0x14 (decidePayload job tag 1 rest) s)

/-- DECIDE with action RAGGED (R65). -/
def execDecideRagged (d : Desk) (job : Byte) (tag : BitVec 16) (rest : List Byte) (s : State) : Answer :=
  .next (receiveFrame d 0x14 (decidePayload job tag 2 rest) s)

/-- DECIDE with action BREAK-BEFORE (R65). -/
def execDecideBreakBefore (d : Desk) (job : Byte) (tag : BitVec 16) (rest : List Byte) (s : State) : Answer :=
  .next (receiveFrame d 0x14 (decidePayload job tag 3 rest) s)

/-- RELEASE (R27, R72). -/
def execRelease (d : Desk) (payload : List Byte) (s : State) : Answer := .next (receiveFrame d 0x15 payload s)

/-- PROBE (R28, R82). -/
def execProbe (d : Desk) (payload : List Byte) (s : State) : Answer := .next (receiveFrame d 0x16 payload s)

/-- QUERY-JOB (R39). -/
def execQueryJob (d : Desk) (payload : List Byte) (s : State) : Answer := .next (receiveFrame d 0x17 payload s)

/-- QUERY-MACHINE (R38). -/
def execQueryMachine (d : Desk) (payload : List Byte) (s : State) : Answer := .next (receiveFrame d 0x18 payload s)

/-- DICT-ADD (R130). -/
def execDictAdd (d : Desk) (payload : List Byte) (s : State) : Answer := .next (receiveFrame d 0x20 payload s)

/-- DICT-DELETE (R131). -/
def execDictDelete (d : Desk) (payload : List Byte) (s : State) : Answer := .next (receiveFrame d 0x21 payload s)

/-- DICT-LOOKUP (R132). -/
def execDictLookup (d : Desk) (payload : List Byte) (s : State) : Answer := .next (receiveFrame d 0x22 payload s)

/-- DIR-WRITE of a font (R83). -/
def execDirWriteFont (d : Desk) (number : Byte) (kind : FontKind) (rest : List Byte) (s : State) : Answer :=
  .next (receiveFrame d 0x30 (number :: byteOf (kindCode kind) :: rest) s)

/-- DIR-WRITE of a gate (R83). -/
def execDirWriteGate (d : Desk) (number : Byte) (rest : List Byte) (s : State) : Answer :=
  .next (receiveFrame d 0x30 (number :: 4 :: rest) s)

/-- DIR-WRITE that makes a descriptor EMPTY (R83). -/
def execDirWriteClear (d : Desk) (number : Byte) (rest : List Byte) (s : State) : Answer :=
  .next (receiveFrame d 0x30 (number :: 0 :: rest) s)

/-- WIDTH-WRITE (R84). -/
def execWidthWrite (d : Desk) (payload : List Byte) (s : State) : Answer := .next (receiveFrame d 0x31 payload s)

/-- TRIM-WRITE of a lens trim (R29, R147). -/
def execTrimWriteLens (d : Desk) (rest : List Byte) (s : State) : Answer := .next (receiveFrame d 0x32 (0 :: rest) s)

/-- TRIM-WRITE of a baseline trim (R29, R147). -/
def execTrimWriteBaseline (d : Desk) (rest : List Byte) (s : State) : Answer :=
  .next (receiveFrame d 0x32 (1 :: rest) s)

/-- TRIM-WRITE of an exposure base (R29, R147). -/
def execTrimWriteExposureBase (d : Desk) (rest : List Byte) (s : State) : Answer :=
  .next (receiveFrame d 0x32 (2 :: rest) s)

/-- SETTING-WRITE (R185). -/
def execSettingWrite (d : Desk) (payload : List Byte) (s : State) : Answer := .next (receiveFrame d 0x33 payload s)

/-- SAVE of the settings region (R30, R186). -/
def execSaveSettings (d : Desk) (rest : List Byte) (s : State) : Answer := .next (receiveFrame d 0x34 (0 :: rest) s)

/-- SAVE of the dictionary region (R30, R186). -/
def execSaveDictionary (d : Desk) (rest : List Byte) (s : State) : Answer := .next (receiveFrame d 0x34 (1 :: rest) s)

/-- NOTICE-MASK (R30). -/
def execNoticeMask (d : Desk) (payload : List Byte) (s : State) : Answer := .next (receiveFrame d 0x35 payload s)

/-- CUT (R30, R172). -/
def execCut (d : Desk) (payload : List Byte) (s : State) : Answer := .next (receiveFrame d 0x36 payload s)

/-- TEST of the RULE pattern (R77, R161). -/
def execTestRule (d : Desk) (rest : List Byte) (s : State) : Answer := .next (receiveFrame d 0x37 (0 :: rest) s)

/-- TEST of the ALIGN pattern (R77, R162). -/
def execTestAlign (d : Desk) (rest : List Byte) (s : State) : Answer := .next (receiveFrame d 0x37 (1 :: rest) s)

/-- TEST of the PRINT pattern (R77, R183). -/
def execTestPrint (d : Desk) (rest : List Byte) (s : State) : Answer := .next (receiveFrame d 0x37 (2 :: rest) s)

/-- PROOF-CONFIG (R30, R178). -/
def execProofConfig (d : Desk) (payload : List Byte) (s : State) : Answer := .next (receiveFrame d 0x38 payload s)

/-- PROOF-ENABLE on (R178). -/
def execProofEnableOn (d : Desk) (rest : List Byte) (s : State) : Answer := .next (receiveFrame d 0x39 (1 :: rest) s)

/-- PROOF-ENABLE off (R178). -/
def execProofEnableOff (d : Desk) (rest : List Byte) (s : State) : Answer := .next (receiveFrame d 0x39 (0 :: rest) s)

/-- LINK-RESET (R35). -/
def execLinkReset (d : Desk) (payload : List Byte) (s : State) : Answer := .next (receiveFrame d 0x3F payload s)

/-- A frame of a type that is no request, answered UNKNOWN (R22). -/
def execUnknownRequest (d : Desk) (type : Byte) (payload : List Byte) (s : State) : Answer :=
  .next (receiveFrame d type payload s)

/-- A good frame that completes while the outgoing queue holds 16 frames: it becomes the kept request (R22). -/
def execGoodFrameKept (d : Desk) (type : Byte) (payload : List Byte) (s : State) : Answer :=
  .next (receiveFrame d type payload s)

/-- A good frame that completes while another is kept: it is dropped and counted (R22). -/
def execKeptFrameDropped (d : Desk) (type : Byte) (payload : List Byte) (s : State) : Answer :=
  .next (receiveFrame d type payload s)

end Sys2Proof.Machine
end

