-- ==== Sys2Proof/Machine/LinkCommands.lean ====
section
/-! DEFINITION. The meanings of the other commands at a link: bytes that make a bad frame (R21), the kept request (R22),
the transmitter (R24), the break condition (R36), and the hold and silence timers (R32, R34, R50). -/

namespace Sys2Proof.Machine

/-- The bytes of a bad frame arrive on a link (R21). -/
def execBadFrame (d : Desk) (bytes : List Byte) (s : State) : Answer := .next (receiveBytes d bytes s)

/-- The kept request is taken, the queue having room (R22). -/
def execKeptRequestTaken (d : Desk) (s : State) : Answer := .next (takeKept d s)

/-- The transmitter finishes the frame it sends and begins the next (R24). -/
def frameSent (d : Desk) (s : State) : State :=
  if (s.links[d].sending).isSome then s.modLink d Link.sent else s

/-- FRAME_SENT. -/
def execFrameSent (d : Desk) (s : State) : Answer := .next (frameSent d s)

/-- A break condition: the link does all that a reset does, and queues no reply; one break condition lasts until the line
returns to marking (R36). -/
def breakLink (d : Desk) (s : State) : State :=
  if s.links[d].spacing then s else resetLink d (s.modLink d fun l => { l with spacing := true })

/-- BREAK_CONDITION. -/
def execBreakCondition (d : Desk) (s : State) : Answer := .next (breakLink d s)

/-- The receive line returns to marking (R36). -/
def execReturnToMarking (d : Desk) (s : State) : Answer := .next (s.modLink d fun l => { l with spacing := false })

/-- The hold timer of a link expires: re-held while the free count is below HIGH, else out of hold without a frame (R32,
R50). -/
def holdExpired (d : Desk) (s : State) : State :=
  if s.links[d].holdTimer.isNone then s
  else if s.store.freeCount < s.settings.high then
    s.modLink d fun l => { l with holdTimer := some s.settings.holdTime }.place (.hold s.settings.holdTime)
  else s.modLink d fun l => { l with hold := false, holdTimer := none }

/-- HOLD_TIMER_EXPIRY. -/
def execHoldTimerExpiry (d : Desk) (s : State) : Answer := .next (holdExpired d s)

/-- The silence timer of a link expires: the desk's RECEIVING job is abandoned with SILENCE (R34). -/
def silenceExpired (d : Desk) (s : State) : State :=
  if s.links[d].silenceTimer.isNone then s else abandonReceiving d .silence (stopSilence d s)

/-- SILENCE_TIMER_EXPIRY. -/
def execSilenceTimerExpiry (d : Desk) (s : State) : Answer := .next (silenceExpired d s)

end Sys2Proof.Machine
end

