-- ==== Sys2Proof/Machine/EngineCommands.lean ====
section
/-! DEFINITION. The meanings of LINE_BUILD (R98), HELD_TIMEOUT (R66), SAVE_COMPLETE (R186) and RESET (R187). -/

namespace Sys2Proof.Machine

/-- LINE_BUILD. -/
def execLineBuild (s : State) : Answer := .next (takeBuild s)

/-- A held job's timer expires: the job is decided as if by DECIDE with action DEFAULT (R66). -/
def heldExpired (j : JobId) (s : State) : State :=
  match s.jobs[j].state, s.jobs[j].heldTimer, s.jobs[j].held with
  | .held, some _, some h => trySelect (decideHeld j h .default s)
  | _, _, _ => s

/-- HELD_TIMEOUT. -/
def execHeldTimeout (j : JobId) (s : State) : Answer := .next (heldExpired j s)

/-- SAVE_COMPLETE. -/
def execSaveComplete (s : State) : Answer := .next (endSave s)

/-- RESET. -/
def execReset (s : State) : Answer := .next (startUp s)

end Sys2Proof.Machine
end

