-- ==== Sys2Proof/Machine/MechanismCommands.lean ====
section
/-! DEFINITION. The meanings of the events of the imaging mechanism: confirms and their timer (R150), flashes (R153), the
turret scan and strips (R160, R87, R89), the lamp (R154) and CLEAR (R159). -/

namespace Sys2Proof.Machine

/-! ## Confirms -/

/-- A turret confirm: in the scan the strip is read next (R160), in a line the element goes on (R149). -/
def turretConfirmed (p : Pos) (s : State) : State :=
  let s1 := (endMove s).modImg fun i => { i with curPos := some p }
  if s.imaging.st = .starting then startMove .readStrip s1 else runElement s1

/-- A lens confirm in a line. -/
def lensConfirmed (l : Lens) (s : State) : State := runElement ((endMove s).modImg fun i => { i with curLens := some l })

/-- The lens is homed: the current lens is 1, start-up is DONE, and the resume test is made (R160). -/
def lensHomed (s : State) : State :=
  resumeTest ((endMove s).modImg fun i => { i with curLens := some 0, stage := .done })

/-- A CONFIRM of a kind, ignored where no move of its kind is in flight (R150). -/
def confirmed (k : ConfirmKind) (s : State) : State :=
  match k, s.imaging.move with
  | .turret, some (.turret p) => settle s.store.freeCount (turretConfirmed p s)
  | .lens, some (.lens l) => settle s.store.freeCount (lensConfirmed l s)
  | .lens, some .lensHome => settle s.store.freeCount (lensHomed s)
  | _, _ => s

/-- CONFIRM. -/
def execConfirm (k : ConfirmKind) (s : State) : Answer := .next (confirmed k s)

/-- The fault of a move that fails: TURRET-FAULT for a turret move or READ-STRIP, LENS-FAULT for a lens move or LENS-HOME
(R150, R160); a flash's expiry is a FLASH_TIMEOUT. -/
def ImgMove.fault : ImgMove → Option StopReason
  | .turret _ => some .turretFault
  | .readStrip => some .turretFault
  | .lens _ => some .lensFault
  | .lensHome => some .lensFault
  | .flash => none

/-- The retry limit that means CONTINUOUS (R150). -/
def continuous : Nat := 7

/-- The confirm timer expires with a move in flight: it is sent again, or it has failed (R150). -/
def confirmExpired (s : State) : State :=
  match s.imaging.confirmTimer, s.imaging.move with
  | some _, some m =>
    match m.fault with
    | none => s
    | some why =>
      if s.imaging.limit = continuous then resend m s.imaging.retry s
      else if s.imaging.retry < s.imaging.limit then resend m (s.imaging.retry + 1) s
      else settle s.store.freeCount (mechanismFault why s)
  | _, _ => s

/-- CONFIRM_TIMER_EXPIRY. -/
def execConfirmTimerExpiry (s : State) : Answer := .next (confirmExpired s)

/-! ## Flashes -/

/-- The reading of a flash taken: it seeds or moves the lamp average, and the flash ends (R153). -/
def flashDone (r : Nat) (s : State) : State :=
  if s.imaging.move = some .flash then
    settle s.store.freeCount (flashEnded r ((endMove s).modImg fun i =>
      { i with a64 := lampAverage i s.settings.avgK r, seedPending := false }))
  else s

/-- FLASH_DONE, with a reading from 0 to 1,023. -/
def execFlashDone (reading : BitVec 10) (s : State) : Answer := .next (flashDone reading.toNat s)

/-- A flash unanswered at the timeout ends as a reading of 0 for the low-reading run; the average is not changed (R153). -/
def flashExpired (s : State) : State :=
  if s.imaging.move = some .flash ∧ s.imaging.confirmTimer.isSome = true then
    settle s.store.freeCount (flashEnded 0 (endMove s))
  else s

/-- FLASH_TIMEOUT. -/
def execFlashTimeout (s : State) : Answer := .next (flashExpired s)

/-! ## Strips -/

/-- A STRIP-OUT and what follows it (R89, R90); of an EMPTY position it changes nothing. -/
def stripRemoved (p : Pos) (s : State) : State :=
  if s.mount.pos[p].st = .empty then s else settle s.store.freeCount (takeStripOut p s)

/-- STRIP_OUT. -/
def execStripOut (p : Pos) (s : State) : Answer := .next (stripRemoved p s)

/-- STRIP-IN at a position. At one that is not EMPTY a STRIP-OUT is taken first, whole: the selection, the suggestions and
all else that follows it come before the strip is classified (R87). -/
def takeStripIn (p : Pos) (c : Byte) (s : State) : State := classifyStrip p c.toNat (stripRemoved p s)

/-- A scan reading taken by the mount table: a strip as STRIP-IN, none as STRIP-OUT (R96). -/
def takeReading (p : Pos) (code : Option Byte) (s : State) : State :=
  match code with
  | some c => takeStripIn p c s
  | none => stripRemoved p s

/-- The scan goes on to the next position, or ends with position 6: the scan-ended flag is set and the lens homed
(R160). -/
def scanOn (p : Pos) (s : State) : State :=
  if h : p.val + 1 < 6 then startMove (.turret ⟨p.val + 1, h⟩) s
  else
    startMove .lensHome
      ({ s with engine := { s.engine with scanEnded := true } }.modImg fun i => { i with stage := .lensHome })

/-- A STRIP-CODE, taken where a READ-STRIP is in flight and it carries the current position (R160). A reading that finds
the strip of a pinned position gone, which a scan begun again can, is a lock failure: the sequencer is then STOPPED with
STRIP-LOST, sends no further command, and the scan does not go on (R90, R156). -/
def stripRead (p : Pos) (code : Option Byte) (s : State) : State :=
  if s.imaging.move = some .readStrip ∧ s.imaging.curPos = some p then
    let t := takeReading p code (endMove s)
    settle t.store.freeCount (if t.imaging.st = .starting then scanOn p t else t)
  else s

/-- STRIP_CODE. -/
def execStripCode (p : Pos) (code : Option Byte) (s : State) : Answer := .next (stripRead p code s)

/-- A STRIP-IN from the panel, and what follows it. Its classification frees no block, so the flow-control decision of an
implied removal is made with that removal alone. -/
def stripFitted (p : Pos) (code : Byte) (s : State) : State :=
  let t := takeStripIn p code s
  settle t.store.freeCount t

/-- STRIP_IN (R87). -/
def execStripIn (p : Pos) (code : Byte) (s : State) : Answer := .next (stripFitted p code s)

/-! ## The lamp and CLEAR -/

/-- A lamp change (R154). -/
def lampChanged (s : State) : State :=
  s.modImg fun i =>
    { i with soak := s.settings.soak, seedPending := true, lowRun := 0, weak := false
             failCleared := i.failCleared || decide (i.st = .stopped ∧ i.stop = .lampFail) }

/-- LAMP_CHANGED. -/
def execLampChanged (s : State) : Answer := .next (lampChanged s)

/-- The sequencer returns to STARTING at the stage that failed: the scan from position 1, or the homing of the lens
(R159, R160). -/
def restart (why : StopReason) (s : State) : State :=
  let s1 := s.modImg fun i => { i with st := .starting, stop := .none }
  if why = .turretFault then startMove (.turret 0) (s1.modImg fun i => { i with stage := .scan })
  else startMove .lensHome s1

/-- The cause of a fault is gone (table of R159). -/
def causeGone (i : Imaging) : Bool := if i.stop = .lampFail then i.failCleared else true

/-- A turret or lens fault raised in STARTING: the start-up stage is not DONE (R159, R160). -/
def raisedInStarting (i : Imaging) : Bool :=
  decide (i.stage ≠ .done ∧ (i.stop = .turretFault ∨ i.stop = .lensFault))

/-- CLEAR taken in STOPPED with a fault reason once the cause is gone (R159). -/
def clearFault (s : State) : State :=
  if s.imaging.st = .stopped ∧ s.imaging.stop.isFilm = false ∧ causeGone s.imaging = true then
    settle s.store.freeCount
      (if raisedInStarting s.imaging then restart s.imaging.stop s
       else resumeTest (s.modImg fun i => { i with stop := .none, move := none }))
  else s

/-- CLEAR. -/
def execClear (s : State) : Answer := .next (clearFault s)

end Sys2Proof.Machine
end

