-- ==== Sys2Proof/Machine/FilmCommands.lean ====
section
/-! DEFINITION. The meanings of the events of the film transport: moves and cuts ending (R163, R173), the cut timer, the
cut button (R172), and the three switches of the film gate (R165, R166). -/

namespace Sys2Proof.Machine

/-! ## Moves and cuts -/

/-- The film has been moved: the cut goes on to the blade, or the line to its first element (R163, R173). -/
def moveEnded (s : State) : State :=
  let s1 := s.modFilm fun f => { f with move := none }
  match s.film.cut with
  | some (.advancingToCut, why) => sendBlade why s1
  | _ => if s.imaging.st = .advancing then beginSetting s1 else s1

/-- A MOVE-DONE, ignored with no move in flight. The event names no move: one that comes late for a move that a spoil or
the gate ended (R157, R175) is taken as the end of the move in flight by then (DESIGN CHOICE, assumption 49). -/
def moveDone (s : State) : State :=
  match s.film.move with
  | none => s
  | some _ => settle s.store.freeCount (moveEnded s)

/-- MOVE_DONE. -/
def execMoveDone (s : State) : Answer := .next (moveDone s)

/-- The cut is done: the timer stops, CUTPOS becomes P, and the take is delivered (R173, step 4). -/
def cutEnded (s : State) : State :=
  deliver (s.modFilm fun f => { f with cut := none, cutTimer := none, cutpos := f.p })

/-- A CUT-DONE, ignored with no cut at the blade; the cut is reported done to what asked for it. The event names no cut:
one that comes late for a cut that a spoil ended (R175) is taken as that of the blade in flight by then (DESIGN CHOICE,
assumption 49). -/
def cutDone (s : State) : State :=
  match s.film.cut with
  | some (.blade, why) => settle s.store.freeCount (cutReported why (cutEnded s))
  | _ => s

/-- CUT_DONE. -/
def execCutDone (s : State) : Answer := .next (cutDone s)

/-- The cut has failed: the take is spoiled, and CUT-FAULT taken; a film-out cut sets its condition all the same (R168,
R173, step 5). -/
def cutFailed (why : CutPurpose) (s : State) : State :=
  let s1 := spoil s
  cutFault (if why = .filmOut then noteFilmOut s1 else s1)

/-- The cut timer expires. -/
def cutExpired (s : State) : State :=
  match s.film.cutTimer, s.film.cut with
  | some _, some (.blade, why) => settle s.store.freeCount (cutFailed why s)
  | _, _ => s

/-- CUT_TIMER_EXPIRY. -/
def execCutTimerExpiry (s : State) : Answer := .next (cutExpired s)

/-- CUT_BUTTON (R172). -/
def execCutButton (s : State) : Answer := .next (askCut s)

/-! ## The gate's switches (R165, R166) -/

/-- A switch has changed: the gate falling spoils a take that holds a segment, and its change is reported (R165). -/
def afterSwitch (was : Bool) (s : State) : State :=
  if was && !s.film.gate then filmLost .gate (if s.film.take.isEmpty then s else spoil s)
  else if !was && s.film.gate then filmChanged s
  else s

/-- An event of the take-up or the door: one that reports a switch already in its state changes nothing. -/
def switchEvent (f : Film → Film) (s : State) : State :=
  if f s.film = s.film then s else settle s.store.freeCount (afterSwitch s.film.gate (s.modFilm f))

/-- The film leaves: the load length, P, HW and CUTPOS are 0; a take that holds a segment is spoiled where the gate falls;
NO-FILM is reported (R165). -/
def unloadFilm (s : State) : State :=
  let s1 := s.modFilm fun f => { f with loaded := false, length := 0, p := 0, hw := 0, cutpos := 0 }
  filmLost .noFilm (if s.film.gate && !s.film.take.isEmpty then spoil s1 else s1)

/-- A MAGAZINE-OUT. -/
def magazineOut (s : State) : State := if s.film.loaded then settle s.store.freeCount (unloadFilm s) else s

/-- MAGAZINE_OUT. -/
def execMagazineOut (s : State) : Answer := .next (magazineOut s)

/-- A fresh roll of a length in feet (R166). -/
def loadFilm (feet : Nat) (s : State) : State :=
  filmChanged (s.modFilm fun f =>
    { f with loaded := true, length := clampNat 10 200 feet * Config.foot, p := 0, hw := 0, cutpos := 0, filmOut := false
             lowSent := false, pendingCut := false })

/-- A MAGAZINE-LOADED; with film loaded already it is taken as MAGAZINE-OUT first. -/
def magazineLoaded (feet : Nat) (s : State) : State :=
  settle s.store.freeCount (loadFilm feet (if s.film.loaded then unloadFilm s else s))

/-- MAGAZINE_LOADED. -/
def execMagazineLoaded (feet : BitVec 16) (s : State) : Answer := .next (magazineLoaded feet.toNat s)

/-- TAKE_UP_IN. -/
def execTakeUpIn (s : State) : Answer := .next (switchEvent (fun f => { f with takeUp := true }) s)

/-- TAKE_UP_OUT. -/
def execTakeUpOut (s : State) : Answer := .next (switchEvent (fun f => { f with takeUp := false }) s)

/-- DOOR_OPEN. -/
def execDoorOpen (s : State) : Answer := .next (switchEvent (fun f => { f with doorClosed := false }) s)

/-- DOOR_CLOSED. -/
def execDoorClosed (s : State) : Answer := .next (switchEvent (fun f => { f with doorClosed := true }) s)

end Sys2Proof.Machine
end

