-- ==== Sys2Proof/Machine/ProofCommands.lean ====
section
/-! DEFINITION. The meanings of the printer's events (R179, R180). -/

namespace Sys2Proof.Machine

/-- The printer condition set, and what follows. -/
def printerReady (s : State) : State := settle s.store.freeCount (s.modProof fun c => { c with printer := .ready })

/-- READY. -/
def execReady (s : State) : Answer := .next (printerReady s)

/-- The printer stops: a record in hand is given back. -/
def printerStops (p : Printer) (s : State) : State :=
  settle s.store.freeCount (giveBackPrinting (s.modProof fun c => { c with printer := p }))

/-- PAPER_OUT. -/
def execPaperOut (s : State) : Answer := .next (printerStops .paperOut s)

/-- FAULT. -/
def execFault (s : State) : Answer := .next (printerStops .fault s)

/-- An ACCEPT, ignored with no character in flight. -/
def accepted (s : State) : State := if s.proof.inFlight.isNone then s else settle s.store.freeCount (takeAccept s)

/-- ACCEPT. -/
def execAccept (s : State) : Answer := .next (accepted s)

end Sys2Proof.Machine
end

