-- ==== Sys2Proof/Machine/Dispatch.lean ====
section
/-! DEFINITION. The dispatch: one arm for each command, one direct call of its meaning. -/

namespace Sys2Proof.Machine

/-- A command's effect on everything but the queue. -/
def exec (i : Instr) (s : State) : Host.Outcome State Fault Refusal :=
  match i with
  | .reset => Sys2Proof.Machine.execReset s
  | .badFrame link bytes => Sys2Proof.Machine.execBadFrame link bytes s
  | .keptFrameDropped link type payload => Sys2Proof.Machine.execKeptFrameDropped link type payload s
  | .keptRequestTaken link => Sys2Proof.Machine.execKeptRequestTaken link s
  | .frameSent link => Sys2Proof.Machine.execFrameSent link s
  | .unknownRequest link type payload => Sys2Proof.Machine.execUnknownRequest link type payload s
  | .openJob link payload => Sys2Proof.Machine.execOpen link payload s
  | .text link payload => Sys2Proof.Machine.execText link payload s
  | .close link payload => Sys2Proof.Machine.execClose link payload s
  | .cancel link payload => Sys2Proof.Machine.execCancel link payload s
  | .decideProposed link job tag rest => Sys2Proof.Machine.execDecideProposed link job tag rest s
  | .decideDefault link job tag rest => Sys2Proof.Machine.execDecideDefault link job tag rest s
  | .decideRagged link job tag rest => Sys2Proof.Machine.execDecideRagged link job tag rest s
  | .decideBreakBefore link job tag rest => Sys2Proof.Machine.execDecideBreakBefore link job tag rest s
  | .release link payload => Sys2Proof.Machine.execRelease link payload s
  | .probe link payload => Sys2Proof.Machine.execProbe link payload s
  | .queryJob link payload => Sys2Proof.Machine.execQueryJob link payload s
  | .queryMachine link payload => Sys2Proof.Machine.execQueryMachine link payload s
  | .dictAdd link payload => Sys2Proof.Machine.execDictAdd link payload s
  | .dictDelete link payload => Sys2Proof.Machine.execDictDelete link payload s
  | .dictLookup link payload => Sys2Proof.Machine.execDictLookup link payload s
  | .dirWriteFont link number kind rest => Sys2Proof.Machine.execDirWriteFont link number kind rest s
  | .dirWriteGate link number rest => Sys2Proof.Machine.execDirWriteGate link number rest s
  | .dirWriteClear link number rest => Sys2Proof.Machine.execDirWriteClear link number rest s
  | .widthWrite link payload => Sys2Proof.Machine.execWidthWrite link payload s
  | .trimWriteLens link rest => Sys2Proof.Machine.execTrimWriteLens link rest s
  | .trimWriteBaseline link rest => Sys2Proof.Machine.execTrimWriteBaseline link rest s
  | .trimWriteExposureBase link rest => Sys2Proof.Machine.execTrimWriteExposureBase link rest s
  | .settingWrite link payload => Sys2Proof.Machine.execSettingWrite link payload s
  | .saveSettings link rest => Sys2Proof.Machine.execSaveSettings link rest s
  | .saveDictionary link rest => Sys2Proof.Machine.execSaveDictionary link rest s
  | .saveComplete => Sys2Proof.Machine.execSaveComplete s
  | .noticeMask link payload => Sys2Proof.Machine.execNoticeMask link payload s
  | .cut link payload => Sys2Proof.Machine.execCut link payload s
  | .testRule link rest => Sys2Proof.Machine.execTestRule link rest s
  | .testAlign link rest => Sys2Proof.Machine.execTestAlign link rest s
  | .testPrint link rest => Sys2Proof.Machine.execTestPrint link rest s
  | .proofConfig link payload => Sys2Proof.Machine.execProofConfig link payload s
  | .proofEnableOn link rest => Sys2Proof.Machine.execProofEnableOn link rest s
  | .proofEnableOff link rest => Sys2Proof.Machine.execProofEnableOff link rest s
  | .linkReset link payload => Sys2Proof.Machine.execLinkReset link payload s
  | .breakCondition link => Sys2Proof.Machine.execBreakCondition link s
  | .holdTimerExpiry link => Sys2Proof.Machine.execHoldTimerExpiry link s
  | .silenceTimerExpiry link => Sys2Proof.Machine.execSilenceTimerExpiry link s
  | .heldTimeout job => Sys2Proof.Machine.execHeldTimeout job s
  | .confirmTimerExpiry => Sys2Proof.Machine.execConfirmTimerExpiry s
  | .flashTimeout => Sys2Proof.Machine.execFlashTimeout s
  | .cutTimerExpiry => Sys2Proof.Machine.execCutTimerExpiry s
  | .lineBuild => Sys2Proof.Machine.execLineBuild s
  | .confirm kind => Sys2Proof.Machine.execConfirm kind s
  | .flashDone reading => Sys2Proof.Machine.execFlashDone reading s
  | .stripCode pos code => Sys2Proof.Machine.execStripCode pos code s
  | .stripIn pos code => Sys2Proof.Machine.execStripIn pos code s
  | .stripOut pos => Sys2Proof.Machine.execStripOut pos s
  | .lampChanged => Sys2Proof.Machine.execLampChanged s
  | .clear => Sys2Proof.Machine.execClear s
  | .moveDone => Sys2Proof.Machine.execMoveDone s
  | .cutDone => Sys2Proof.Machine.execCutDone s
  | .cutButton => Sys2Proof.Machine.execCutButton s
  | .magazineLoaded feet => Sys2Proof.Machine.execMagazineLoaded feet s
  | .magazineOut => Sys2Proof.Machine.execMagazineOut s
  | .takeUpIn => Sys2Proof.Machine.execTakeUpIn s
  | .takeUpOut => Sys2Proof.Machine.execTakeUpOut s
  | .doorOpen => Sys2Proof.Machine.execDoorOpen s
  | .doorClosed => Sys2Proof.Machine.execDoorClosed s
  | .ready => Sys2Proof.Machine.execReady s
  | .paperOut => Sys2Proof.Machine.execPaperOut s
  | .fault => Sys2Proof.Machine.execFault s
  | .accept => Sys2Proof.Machine.execAccept s
  | .goodFrameKept link type payload => Sys2Proof.Machine.execGoodFrameKept link type payload s
  | .returnToMarking link => Sys2Proof.Machine.execReturnToMarking link s

end Sys2Proof.Machine
end

