-- ==== Sys2Proof/WellFormed.lean ====
section
/-! DEFINITION. Well-formed commands: the frame of a request is one that a desk can send (02, "The frame envelope"), an
UNKNOWN_REQUEST carries a type that is no request, and a BAD_FRAME carries bytes. -/

namespace Sys2Proof

/-- The request types (table of request frames). -/
def requestTypes : List Nat :=
  [0x10, 0x11, 0x12, 0x13, 0x14, 0x15, 0x16, 0x17, 0x18, 0x20, 0x21, 0x22, 0x30, 0x31, 0x32, 0x33, 0x34, 0x35, 0x36,
   0x37, 0x38, 0x39, 0x3F]

/-- A frame's payload has at most 71 bytes, so that its length byte is at most 72. -/
def payloadFits (fixed : Nat) (bytes : List Byte) : Bool := decide (fixed + bytes.length ≤ 71)

/-- The command is well-formed. -/
def Instr.wellFormed : Instr → Bool
  | .reset => true
  | .badFrame _ bytes => decide (bytes ≠ [])
  | .keptFrameDropped _ _ p => payloadFits 0 p
  | .keptRequestTaken _ => true
  | .frameSent _ => true
  | .unknownRequest _ t p => payloadFits 0 p && !requestTypes.contains t.toNat
  | .openJob _ p => payloadFits 0 p
  | .text _ p => payloadFits 0 p
  | .close _ p => payloadFits 0 p
  | .cancel _ p => payloadFits 0 p
  | .decideProposed _ _ _ r => payloadFits 4 r
  | .decideDefault _ _ _ r => payloadFits 4 r
  | .decideRagged _ _ _ r => payloadFits 4 r
  | .decideBreakBefore _ _ _ r => payloadFits 4 r
  | .release _ p => payloadFits 0 p
  | .probe _ p => payloadFits 0 p
  | .queryJob _ p => payloadFits 0 p
  | .queryMachine _ p => payloadFits 0 p
  | .dictAdd _ p => payloadFits 0 p
  | .dictDelete _ p => payloadFits 0 p
  | .dictLookup _ p => payloadFits 0 p
  | .dirWriteFont _ _ _ r => payloadFits 2 r
  | .dirWriteGate _ _ r => payloadFits 2 r
  | .dirWriteClear _ _ r => payloadFits 2 r
  | .widthWrite _ p => payloadFits 0 p
  | .trimWriteLens _ r => payloadFits 1 r
  | .trimWriteBaseline _ r => payloadFits 1 r
  | .trimWriteExposureBase _ r => payloadFits 1 r
  | .settingWrite _ p => payloadFits 0 p
  | .saveSettings _ r => payloadFits 1 r
  | .saveDictionary _ r => payloadFits 1 r
  | .saveComplete => true
  | .noticeMask _ p => payloadFits 0 p
  | .cut _ p => payloadFits 0 p
  | .testRule _ r => payloadFits 1 r
  | .testAlign _ r => payloadFits 1 r
  | .testPrint _ r => payloadFits 1 r
  | .proofConfig _ p => payloadFits 0 p
  | .proofEnableOn _ r => payloadFits 1 r
  | .proofEnableOff _ r => payloadFits 1 r
  | .linkReset _ p => payloadFits 0 p
  | .breakCondition _ => true
  | .holdTimerExpiry _ => true
  | .silenceTimerExpiry _ => true
  | .heldTimeout _ => true
  | .confirmTimerExpiry => true
  | .flashTimeout => true
  | .cutTimerExpiry => true
  | .lineBuild => true
  | .confirm _ => true
  | .flashDone _ => true
  | .stripCode _ _ => true
  | .stripIn _ _ => true
  | .stripOut _ => true
  | .lampChanged => true
  | .clear => true
  | .moveDone => true
  | .cutDone => true
  | .cutButton => true
  | .magazineLoaded _ => true
  | .magazineOut => true
  | .takeUpIn => true
  | .takeUpOut => true
  | .doorOpen => true
  | .doorClosed => true
  | .ready => true
  | .paperOut => true
  | .fault => true
  | .accept => true
  | .goodFrameKept _ _ p => payloadFits 0 p
  | .returnToMarking _ => true

end Sys2Proof
end

