-- ==== Sys2Proof/Safety.lean ====
section
/-! DEFINITION. The terms of the statements: when a link takes a frame at once, the frame a request command carries, what
is kept by the commands that follow a command's own effect, and what holds of every state a run reaches. -/

namespace Sys2Proof.Machine

/-! ## Requests -/

/-- The frame that a request command sends on its desk's link. -/
def frameOf : Instr → Option (Desk × Frame)
  | .openJob d p => some (d, ⟨0x10, p⟩)
  | .text d p => some (d, ⟨0x11, p⟩)
  | .close d p => some (d, ⟨0x12, p⟩)
  | .cancel d p => some (d, ⟨0x13, p⟩)
  | .decideProposed d j t r => some (d, ⟨0x14, decidePayload j t 0 r⟩)
  | .decideDefault d j t r => some (d, ⟨0x14, decidePayload j t 1 r⟩)
  | .decideRagged d j t r => some (d, ⟨0x14, decidePayload j t 2 r⟩)
  | .decideBreakBefore d j t r => some (d, ⟨0x14, decidePayload j t 3 r⟩)
  | .release d p => some (d, ⟨0x15, p⟩)
  | .probe d p => some (d, ⟨0x16, p⟩)
  | .queryJob d p => some (d, ⟨0x17, p⟩)
  | .queryMachine d p => some (d, ⟨0x18, p⟩)
  | .dictAdd d p => some (d, ⟨0x20, p⟩)
  | .dictDelete d p => some (d, ⟨0x21, p⟩)
  | .dictLookup d p => some (d, ⟨0x22, p⟩)
  | .dirWriteFont d n k r => some (d, ⟨0x30, n :: byteOf (kindCode k) :: r⟩)
  | .dirWriteGate d n r => some (d, ⟨0x30, n :: 4 :: r⟩)
  | .dirWriteClear d n r => some (d, ⟨0x30, n :: 0 :: r⟩)
  | .widthWrite d p => some (d, ⟨0x31, p⟩)
  | .trimWriteLens d r => some (d, ⟨0x32, 0 :: r⟩)
  | .trimWriteBaseline d r => some (d, ⟨0x32, 1 :: r⟩)
  | .trimWriteExposureBase d r => some (d, ⟨0x32, 2 :: r⟩)
  | .settingWrite d p => some (d, ⟨0x33, p⟩)
  | .saveSettings d r => some (d, ⟨0x34, 0 :: r⟩)
  | .saveDictionary d r => some (d, ⟨0x34, 1 :: r⟩)
  | .noticeMask d p => some (d, ⟨0x35, p⟩)
  | .cut d p => some (d, ⟨0x36, p⟩)
  | .testRule d r => some (d, ⟨0x37, 0 :: r⟩)
  | .testAlign d r => some (d, ⟨0x37, 1 :: r⟩)
  | .testPrint d r => some (d, ⟨0x37, 2 :: r⟩)
  | .proofConfig d p => some (d, ⟨0x38, p⟩)
  | .proofEnableOn d r => some (d, ⟨0x39, 1 :: r⟩)
  | .proofEnableOff d r => some (d, ⟨0x39, 0 :: r⟩)
  | .linkReset d p => some (d, ⟨0x3F, p⟩)
  | .unknownRequest d t p => some (d, ⟨t, p⟩)
  | .goodFrameKept d t p => some (d, ⟨t, p⟩)
  | .keptFrameDropped d t p => some (d, ⟨t, p⟩)
  | _ => none

/-- The receiver of a link is at the start of a frame: in HUNT, with the line at marking. -/
def Listening (d : Desk) (s : State) : Prop := s.links[d].rx = .hunt ∧ s.links[d].spacing = false

/-- A link takes a good frame at once: it listens, keeps no request, and its outgoing queue has room (R22). -/
def Takes (d : Desk) (s : State) : Prop :=
  Listening d s ∧ s.links[d].kept = none ∧ s.links[d].queue.length < Config.queueSize

/-- The desk's level allows a request of a type (R23). -/
def Allowed (d : Desk) (type : Byte) (s : State) : Prop :=
  ∃ level, requestLevel type = some level ∧ s.settings.deskLevel[d] ≤ level

/-- The state after a request that changes nothing and is answered: its frame has restarted a running silence timer (R33),
and the reply stands in the link's queue (R22). -/
def State.answered (d : Desk) (type : Byte) (code : ReplyCode) (data : List Byte) (s : State) : State :=
  (restartSilence d s).reply d type code data

/-- The length of a request's payload, for the types whose payload has one length (table of request frames). -/
def fixedLength (type : Byte) : Option Nat :=
  match type.toNat with
  | 0x10 => some 6
  | 0x12 => some 3
  | 0x13 => some 3
  | 0x15 => some 3
  | 0x16 => some 1
  | 0x17 => some 1
  | 0x18 => some 0
  | 0x32 => some 4
  | 0x33 => some 3
  | 0x34 => some 1
  | 0x35 => some 2
  | 0x36 => some 0
  | 0x37 => some 1
  | 0x38 => some 3
  | 0x39 => some 1
  | 0x3F => some 0
  | _ => none

/-- The payload has a length the table of request frames gives its type, and each coded field of it a value of the table's
coding (R22, check 3). That the header and marks bytes of PROOF-CONFIG have every value is assumption 19. -/
def payloadCoded (f : Frame) : Bool :=
  match f.type.toNat with
  | 0x10 =>
    match f.payload with
    | [_, _, mode, cls, origin, cut] => decide (mode.toNat ≤ 3 ∧ cls.toNat ≤ 2 ∧ origin.toNat ≤ 3 ∧ cut.toNat ≤ 1)
    | _ => false
  | 0x11 =>
    match f.payload with
    | _ :: _ :: _ :: text => decide (1 ≤ text.length ∧ text.length ≤ 64)
    | _ => false
  | 0x14 =>
    match f.payload with
    | [_, _, _, action] => decide (action.toNat ≤ 2)
    | [_, _, _, action, _] => decide (action.toNat = 3)
    | _ => false
  | 0x20 =>
    match f.payload with
    | w :: rest => decide (rest.length = w.toNat + 1 + (rest.getD w.toNat 0).toNat)
    | _ => false
  | 0x21 =>
    match f.payload with
    | w :: word => decide (word.length = w.toNat)
    | _ => false
  | 0x22 =>
    match f.payload with
    | w :: word => decide (word.length = w.toNat)
    | _ => false
  | 0x30 =>
    match f.payload with
    | [_, type] => decide (type.toNat = 0)
    | [_, type, _, _, _, _, _, _, _, _, _, _, _, _, _] => decide (type.toNat = 4)
    | [_, type, _, _, _, _, _, hyphenate, _, _, _, _, _, _, _, _] => decide (1 ≤ type.toNat ∧ type.toNat ≤ 3 ∧ hyphenate.toNat ≤ 1)
    | _ => false
  | 0x31 =>
    match f.payload with
    | _ :: first :: widths => decide (0x20 ≤ first.toNat ∧ first.toNat ≤ 0x7F ∧ 1 ≤ widths.length ∧ widths.length ≤ 64)
    | _ => false
  | 0x32 =>
    match f.payload with
    | [kind, _, _, _] => decide (kind.toNat ≤ 2)
    | _ => false
  | 0x34 =>
    match f.payload with
    | [region] => decide (region.toNat ≤ 1)
    | _ => false
  | 0x37 =>
    match f.payload with
    | [pattern] => decide (pattern.toNat ≤ 2)
    | _ => false
  | 0x39 =>
    match f.payload with
    | [enable] => decide (enable.toNat ≤ 1)
    | _ => false
  | _ => ((fixedLength f.type).map fun n => decide (f.payload.length = n)).getD true

/-- The DECIDE command of an action. -/
def decideCommand (d : Desk) (number : Byte) (tag : BitVec 16) : Action → Instr
  | .proposed => .decideProposed d number tag []
  | .default => .decideDefault d number tag []
  | .ragged => .decideRagged d number tag []
  | .breakBefore k => .decideBreakBefore d number tag [byteOf k]

/-- The command is an event that does not come over a desk link's lines, and is not RESET. -/
def isEvent : Instr → Bool
  | .saveComplete => true
  | .frameSent _ => true
  | .holdTimerExpiry _ => true
  | .silenceTimerExpiry _ => true
  | .heldTimeout _ => true
  | .confirmTimerExpiry => true
  | .flashTimeout => true
  | .cutTimerExpiry => true
  | .lineBuild => true
  | .confirm _ => true
  | .flashDone _ => true
  | .stripCode _ _ => true
  | .stripIn _ _ => true
  | .stripOut _ => true
  | .lampChanged => true
  | .clear => true
  | .moveDone => true
  | .cutDone => true
  | .cutButton => true
  | .magazineLoaded _ => true
  | .magazineOut => true
  | .takeUpIn => true
  | .takeUpOut => true
  | .doorOpen => true
  | .doorClosed => true
  | .ready => true
  | .paperOut => true
  | .fault => true
  | .accept => true
  | .breakCondition _ => true
  | .returnToMarking _ => true
  | _ => false

/-! ## Jobs -/

/-- Job `j` is the lowest-numbered FREE record (R25). -/
def LowestFree (j : JobId) (s : State) : Prop := s.jobs[j].state = .free ∧ ∀ k : JobId, k < j → s.jobs[k].state ≠ .free

/-- Job `j` is RECEIVING and owned by a desk, and no lower-numbered job is. -/
def Receiving (d : Desk) (j : JobId) (s : State) : Prop :=
  s.jobs[j].state = .receiving ∧ s.jobs[j].owner = d ∧
  ∀ k : JobId, k < j → ¬ (s.jobs[k].state = .receiving ∧ s.jobs[k].owner = d)

/-- The desk owns no RECEIVING job. -/
def NotReceiving (d : Desk) (s : State) : Prop := ∀ k : JobId, ¬ (s.jobs[k].state = .receiving ∧ s.jobs[k].owner = d)

/-- The job's number, owning desk and tag are those of a request (R27). -/
def Matches (d : Desk) (number : Byte) (tag : BitVec 16) (j : JobId) (s : State) : Prop :=
  number.toNat = j.val ∧ s.jobs[j].state ≠ .free ∧ s.jobs[j].owner = d ∧ s.jobs[j].tag = tag

/-- No job matches a request (R27): the number is above 31, or the record is FREE, another desk's or of another tag. -/
def NoMatch (d : Desk) (number : Byte) (tag : BitVec 16) (s : State) : Prop := ∀ j : JobId, ¬ Matches d number tag j s

/-- Job `j` is COMPOSING, and no lower-numbered job is. -/
def Composing (j : JobId) (s : State) : Prop :=
  s.jobs[j].state = .composing ∧ ∀ k : JobId, k < j → s.jobs[k].state ≠ .composing

/-- The address of the galley store at which one appended byte is stored: in the job's last block, or in the block at the
head of the free list (R44). -/
def appendAddress (p : Store × Job) : Option Nat :=
  if p.2.bytes % Config.blockBytes = 0 then p.1.allocate.map fun r => Config.blockBytes * r.1
  else p.2.lastBlock.map fun l => Config.blockBytes * l + p.2.bytes % Config.blockBytes

/-- The addresses at which appended bytes are stored, one after another. -/
def appendAddresses : Store × Job → List Byte → List Nat
  | _, [] => []
  | p, b :: bs => (appendAddress p).toList ++ appendAddresses (appendByte p b) bs

/-! ## The stored regions -/

/-- The settings stand in their ranges and in their owners' order, as writes leave them (R9, R47, R164, R185). -/
def SettingsSound (t : Settings) : Prop :=
  (∀ id lo hi, settingRange id = some (lo, hi) → lo ≤ t.get id ∧ t.get id ≤ hi) ∧
  t.fullReserve ≤ t.low ∧ t.low < t.high ∧ t.cutMargin ≤ t.cutReserve ∧ t.maxTake % 10 = 0 ∧
  t.house.size ∈ Config.lensSizes ∧ t.house.indent + 360 ≤ t.house.measure ∧
  t.house.spMin ≤ t.house.spNorm ∧ t.house.spNorm ≤ t.house.spMax

/-- Every descriptor's fields are in range, no two fonts hold one strip code, and a width table's entries are at most 96,
and 0 while it is unloaded (R78, R79). -/
def DirectorySound (d : Directory) : Prop :=
  (∀ n : Fin 64, d.desc[n].inRange = true) ∧
  (∀ m n : Fin 64, m ≠ n → ∀ c, d.desc[m].strip = some c → d.desc[n].strip ≠ some c) ∧
  ∀ k : Fin 24, ∀ i : Fin 96, d.tables[k].widths[i] ≤ 96 ∧ (d.tables[k].loaded = false → d.tables[k].widths[i] = 0)

/-- The trims and the bases are in their ranges (R147). -/
def TrimsSound (t : Trims) : Prop :=
  (∀ l : Lens, -200 ≤ t.lens[l] ∧ t.lens[l] ≤ 200 ∧ 1 ≤ t.expo[l] ∧ t.expo[l] ≤ 255) ∧
  ∀ p : Pos, -50 ≤ t.base[p] ∧ t.base[p] ≤ 50

/-- The words and break lists of the dictionary's entries keep the rules of DICT-ADD (R130). -/
def WordsSound (d : Dictionary) : Prop :=
  ∀ b : Fin 256, ∀ e ∈ d[b], validWord e.word = true ∧ foldWord e.word = e.word ∧ validBreaks e.word.length e.breaks = true

/-! ## Invariants -/

/-- The galley store's bytes are in canonical form. -/
def BytesCanonical (s : State) : Prop := Memory.wf s.store.cells = true

/-- The thresholds stand in the order FULL-RESERVE ≤ LOW < HIGH ≤ 2,048 (R47), and the cut reserve is never below the cut
margin (R164). -/
def SettingsOrdered (s : State) : Prop :=
  s.settings.fullReserve ≤ s.settings.low ∧ s.settings.low < s.settings.high ∧ s.settings.high ≤ 2048 ∧
  s.settings.cutMargin ≤ s.settings.cutReserve

/-- The dictionary holds at most 1,024 entries, no two in one bucket with the same word, each in the bucket its hash
gives (R128). -/
def DictionarySound (s : State) : Prop :=
  dictCount s.dict ≤ Config.maxEntries ∧
  ∀ b : Fin 256, (∀ e ∈ s.dict[b], bucketOf e.word = b) ∧ (s.dict[b].map (·.word)).Nodup

/-- No two font descriptors hold one strip code (R78). -/
def StripsDistinct (s : State) : Prop :=
  ∀ m n : Fin 64, m ≠ n → ∀ c, s.dir.desc[m].strip = some c → s.dir.desc[n].strip ≠ some c

/-- The blocks of a chain, or of the free list, are linked: each names the next by its next-link, the last none. -/
def linked (st : Store) : List Nat → Prop
  | [] => True
  | [b] => st.next b = none
  | b :: c :: r => st.next b = some c ∧ linked st (c :: r)

/-- The chain of a job's text is the one its record names (R40). -/
def ChainSound (st : Store) (j : Job) : Prop :=
  j.bytes ≤ Config.maxText ∧ (chainOf st j).length = blocksFor j.bytes ∧ j.firstBlock = (chainOf st j).head? ∧
  j.lastBlock = (chainOf st j).getLast? ∧ linked st (chainOf st j)

/-- The blocks of the store: each of the 2,048 is on the free list or in one chain, once; the free list is linked; a FREE
record has no text; the next-links are in canonical form (R40, R41). -/
def GalleySound (s : State) : Prop :=
  (s.store.freeList ++ allJobs.flatMap fun j => chainOf s.store s.jobs[j]).Perm (List.range Config.blocks) ∧
  linked s.store s.store.freeList ∧ (∀ j : JobId, ChainSound s.store s.jobs[j]) ∧
  (∀ j : JobId, s.jobs[j].state = .free → s.jobs[j].bytes = 0) ∧ sparseWf startLink s.store.links = true

/-- No font is MOUNTED at more than one turret position (R85). -/
def MountedOnce (s : State) : Prop :=
  ∀ p q : Pos, p ≠ q → ∀ f, s.mount.pos[p].font = some f → s.mount.pos[q].font ≠ some f

/-- CUTPOS ≤ P ≤ HW ≤ the load length (R163). -/
def FilmSound (s : State) : Prop :=
  s.film.cutpos ≤ s.film.p ∧ s.film.p ≤ s.film.hw ∧ s.film.hw ≤ s.film.length

/-- The pin count of each position is the number of imaging-due, not-done records with an element on it, and each such
element stands at the position where its font is MOUNTED (R85, R91, R137). -/
def PinsSound (s : State) : Prop :=
  (∀ p : Pos, s.mount.pos[p].pins =
    (s.buffer.filter Record.imgLive).countP fun r => r.elements.any fun e => decide (e.pos = some p)) ∧
  ∀ r ∈ s.buffer, r.imgLive = true → ∀ e ∈ r.elements, ∀ p : Pos, e.pos = some p → s.mount.pos[p].font = some e.font

/-- The line buffer holds at most 64 records, and fewer while the engine is RUNNING, and each consumer has at most one
record in hand (R97, R134, R138, R139). -/
def BufferSound (s : State) : Prop :=
  s.buffer.length ≤ 64 ∧ (s.engine.st = .running → s.buffer.length < 64) ∧
  (s.buffer.countP fun r => decide (r.img = .busy)) ≤ 1 ∧ (s.buffer.countP fun r => decide (r.proof = .busy)) ≤ 1

/-- What the sequencer's state says of the record in hand, of the cut and of the move in flight: in IDLE, STOPPED and
STARTING no record is in hand; a cut is in flight only in CUTTING, the pending cut's with no record in hand, and one made
for a line's move with a TEXT record (R138, R145, R146, R148); a turret move is in flight only in SETTING or STARTING, a
lens move or a flash only in SETTING, the homing and the strip reading only in STARTING (R149, R160). -/
def SequencerSound (s : State) : Prop :=
  (s.imaging.st = .idle ∨ s.imaging.st = .stopped ∨ s.imaging.st = .starting → ∀ r ∈ s.buffer, r.img ≠ .busy) ∧
  (s.film.cut.isSome = true → s.imaging.st = .cutting) ∧
  (∀ stage, s.film.cut = some (stage, .pending) → ∀ r ∈ s.buffer, r.img ≠ .busy) ∧
  (∀ stage why, s.film.cut = some (stage, why) → why = .segments ∨ why = .length →
    ∀ r ∈ s.buffer, r.img = .busy → r.text.isSome = true) ∧
  (∀ p, s.imaging.move = some (.turret p) → s.imaging.st = .setting ∨ s.imaging.st = .starting) ∧
  (∀ l, s.imaging.move = some (.lens l) → s.imaging.st = .setting) ∧
  (s.imaging.move = some .flash → s.imaging.st = .setting) ∧
  (s.imaging.move = some .lensHome ∨ s.imaging.move = some .readStrip → s.imaging.st = .starting)

/-- The take holds at most 16 segments, and while a line is on its way to it, room for that line (R167, R171). -/
def TakeSound (s : State) : Prop :=
  s.film.take.length ≤ 16 ∧
  (s.imaging.st = .advancing ∨ s.imaging.st = .setting →
    ∀ r ∈ s.buffer, r.img = .busy → ∀ x, r.text = some x →
      s.film.take.length < 16 ∨ ∃ g, s.film.take.getLast? = some g ∧ g.job = r.job ∧ g.last + 1 = x.line)

/-- The mount table, the line buffer, the sequencer and the take agree. -/
def MachineSound (s : State) : Prop :=
  MountedOnce s ∧ PinsSound s ∧ BufferSound s ∧ SequencerSound s ∧ TakeSound s

end Sys2Proof.Machine
end

