-- ==== Sys2Proof/Certificates/Slice0/Obligations.lean ====
section
/-! DEFINITION. The statements for the provers, chapter by chapter of the manual. Numbers n of log entries refer to
notes/assumptions/n.md. -/

open Sys2Proof Sys2Proof.Machine

/-! ## The step -/

/-- A step runs the command at the front of the queue on the state with the queue's rest. That the commands stand in one
first-in-first-out queue is the model's choice (assumptions 1 and 38), not the manual's: the statement ties step to exec. -/
def Obligations.StepRunsFrontCommand : Prop :=
  ∀ (c : Instr) (rest : List Instr) (s : State), s.pending = c :: rest → step s = exec c { s with pending := rest }

/-! ## Desk links: frames and requests (02) -/

/-- A frame of a type that is no request is answered UNKNOWN, and nothing else is done (R22, check 1).
A request command that arrives whole on a link that takes it: a desk above the level the request needs is answered
DENIED and nothing else is done, any other has its request handled (R22, R23).
A request whose type has one payload length, sent with another, is answered BAD-VALUE, and nothing else is done; so is a
request of any type whose payload has a length the table does not allow, or a coded field outside its coding (R22,
check 3). That the two bytes of PROOF-CONFIG are outside the coding for no value is the model's reading (assumption 19).
The request types are those of the table, each open to the desks at the levels of R23 (R22, R23); a frame restarts a running
silence timer with the silence time, and one that is stopped stays so (R33). -/
def Obligations.RequestChecksInOrder : Prop :=
  (∀ (d : Desk) (t : Byte) (p : List Byte) (s : State),
     p.length ≤ 71 → t.toNat ∉ requestTypes → Takes d s →
     exec (.unknownRequest d t p) s = .next (s.answered d t .unknown [])) ∧
  (∀ (c : Instr) (d : Desk) (f : Frame) (s : State),
     frameOf c = some (d, f) → c.wellFormed = true → Takes d s → f.type.toNat ∈ requestTypes →
     let needed : Nat :=
       if f.type.toNat ∈ [0x30, 0x31, 0x32, 0x33, 0x34, 0x36, 0x37, 0x38, 0x39] then 0
       else if f.type.toNat ∈ [0x20, 0x21] then 1
       else 3
     (needed < s.settings.deskLevel[d] → exec c s = .next (s.answered d f.type .denied [])) ∧
     (s.settings.deskLevel[d] ≤ needed → exec c s = .next (handleRequest d f.type f.payload (restartSilence d s)))) ∧
  (∀ (c : Instr) (d : Desk) (f : Frame) (n : Nat) (s : State),
     frameOf c = some (d, f) → c.wellFormed = true → Takes d s → Allowed d f.type s →
     fixedLength f.type = some n → f.payload.length ≠ n →
     exec c s = .next (s.answered d f.type .badValue [])) ∧
  (∀ (c : Instr) (d : Desk) (f : Frame) (s : State),
     frameOf c = some (d, f) → c.wellFormed = true → Takes d s → Allowed d f.type s → payloadCoded f = false →
     exec c s = .next (s.answered d f.type .badValue [])) ∧
  (∀ (d : Desk) (type : Byte) (s : State),
     let anyLevel : List Nat := [0x10, 0x11, 0x12, 0x13, 0x14, 0x15, 0x16, 0x17, 0x18, 0x22, 0x35, 0x3F]
     let levelOne : List Nat := [0x20, 0x21]
     let levelZero : List Nat := [0x30, 0x31, 0x32, 0x33, 0x34, 0x36, 0x37, 0x38, 0x39]
     let desk := s.settings.deskLevel[d]
     (type.toNat ∈ requestTypes ↔ type.toNat ∈ anyLevel ++ levelOne ++ levelZero) ∧
     (Allowed d type s ↔
       (type.toNat ∈ anyLevel ∧ desk ≤ 3) ∨ (type.toNat ∈ levelOne ∧ desk ≤ 1) ∨
         (type.toNat ∈ levelZero ∧ desk = 0)) ∧
     restartSilence d s = s.modLink d fun l =>
       { l with silenceTimer := if l.silenceTimer.isSome then some s.settings.silence else none })

/-- A good frame that completes while the outgoing queue holds 16 frames becomes the kept request (R22); it restarts a
running silence timer (R33).
A good frame that completes while another is kept is dropped with no reply, and counted as a bad frame (R22); it
restarts a running silence timer (R33).
The kept request is taken once the outgoing queue has room, with the checks of a request taken at once: one of an unknown
type is answered UNKNOWN, one of a desk above the level it needs DENIED, and any other is handled (R22, R23). That it is
taken by a command of its own is the model's reading of the table (assumption 7). -/
def Obligations.FramesKeptAndDropped : Prop :=
  (∀ (d : Desk) (t : Byte) (p : List Byte) (s : State),
     p.length ≤ 71 → Listening d s → s.links[d].kept = none → 16 ≤ s.links[d].queue.length →
     exec (.goodFrameKept d t p) s = .next (s.modLink d fun l =>
       { l with kept := some ⟨t, p⟩
                silenceTimer := if l.silenceTimer.isSome then some s.settings.silence else none })) ∧
  (∀ (d : Desk) (t : Byte) (p : List Byte) (s : State),
     p.length ≤ 71 → Listening d s → s.links[d].kept.isSome = true →
     exec (.keptFrameDropped d t p) s = .next (s.modLink d fun l =>
       { l with badFrames := if l.badFrames < 65535 then l.badFrames + 1 else l.badFrames
                silenceTimer := if l.silenceTimer.isSome then some s.settings.silence else none })) ∧
  (∀ (d : Desk) (f : Frame) (s : State),
     s.links[d].kept = some f → s.links[d].queue.length < 16 →
     let taken : State := s.modLink d fun l => { l with kept := none }
     (Allowed d f.type s →
       exec (.keptRequestTaken d) s = .next (handleRequest d f.type f.payload taken)) ∧
     (f.type.toNat ∉ requestTypes → exec (.keptRequestTaken d) s = .next (taken.reply d f.type .unknown [])) ∧
     (f.type.toNat ∈ requestTypes → ¬ Allowed d f.type s →
       exec (.keptRequestTaken d) s = .next (taken.reply d f.type .denied [])))

/-- Bytes that make a bad frame on a listening link, by a length of 0 or above 72 or by a sum that is not 0, raise the
bad-frame counter by one, up to 65,535, and change nothing else: no silence timer restarts. In HUNT a byte other than
0xA5 is discarded without count (R21, R33). -/
def Obligations.BadFramesCounted : Prop :=
  ∀ (d : Desk) (s : State), Listening d s →
    let counted := s.modLink d fun l =>
      { l with badFrames := if l.badFrames < 65535 then l.badFrames + 1 else l.badFrames }
    (∀ n : Byte, n.toNat = 0 ∨ 72 < n.toNat → exec (.badFrame d [0xA5, n]) s = .next counted) ∧
    (∀ (n : Byte) (body : List Byte), 1 ≤ n.toNat → n.toNat ≤ 72 → body.length = n.toNat + 1 →
      body.foldl (· + ·) n ≠ 0 → exec (.badFrame d (0xA5 :: n :: body)) s = .next counted) ∧
    (∀ b : Byte, b ≠ 0xA5 → exec (.badFrame d [b]) s = .next s)

/-- The transmitter that finishes a frame begins the flow-control frame first, else the head of the queue, which leaves the
queue then; with neither it is free. The frame begun is sent as its bytes: the lead 0xA5, the length, the type, the payload,
and a check byte that makes the sum of the length, type, payload and check bytes 0 modulo 256 (R21, R24).
A frame that enters a link's queue goes to its tail. While the transmitter is busy it waits there; while it is free the
transmitter begins the frame in the slot, or else the head of the queue, which is the old head where there was one and the new
frame where there was none, within the same command (R24; that it begins within the command is the model's reading, assumption
10).
A reply is the frame 0x80 with the type of the request, the code and the data, with the codes 0 OK, 1 BUSY, 2 FULL, 3 LIMIT,
4 DENIED, 5 NO-JOB, 6 BAD-STATE, 7 BAD-VALUE, 8 IN-USE, 9 ENABLED, 10 ABSENT and 11 UNKNOWN, and enters the queue of its desk's
link; no other link changes, and nothing else does (R22, R24, tables of controller frames and reply codes).
Numbers of two and three bytes are written and read high byte first, signed ones as two's complement (02, "The frame
envelope"). -/
def Obligations.FrameSentBeginsNext : Prop :=
  (∀ (d : Desk) (s : State), (s.links[d].sending).isSome = true →
    (∀ t, s.links[d].slot = some (.hold t) →
      exec (.frameSent d) s =
        .next (s.modLink d fun l => { l with slot := none, sending := some (envelope 0x81 (be2 t)) })) ∧
    (s.links[d].slot = some .resume →
      exec (.frameSent d) s = .next (s.modLink d fun l => { l with slot := none, sending := some (envelope 0x82 []) })) ∧
    (∀ f r, s.links[d].slot = none → s.links[d].queue = f :: r →
      exec (.frameSent d) s = .next (s.modLink d fun l => { l with queue := r, sending := some (envelope f.type f.payload) })) ∧
    (s.links[d].slot = none → s.links[d].queue = [] →
      exec (.frameSent d) s = .next (s.modLink d fun l => { l with sending := none }))) ∧
  (∀ (type : Byte) (payload : List Byte),
    ∃ check : Byte, envelope type payload = 0xA5 :: byteOf (payload.length + 1) :: type :: payload ++ [check] ∧
      ((envelope type payload).drop 1).foldl (· + ·) 0 = 0) ∧
  (∀ (l : Link) (f : Frame),
    let queue := l.queue ++ [f]
    (l.sending.isSome = true → l.enqueue f = { l with queue := queue }) ∧
    (l.sending = none →
      (∀ t, l.slot = some (.hold t) →
        l.enqueue f = { l with queue := queue, slot := none, sending := some (envelope 0x81 (be2 t)) }) ∧
      (l.slot = some .resume → l.enqueue f = { l with queue := queue, slot := none, sending := some (envelope 0x82 []) }) ∧
      (l.slot = none → l.queue = [] → l.enqueue f = { l with sending := some (envelope f.type f.payload) }) ∧
      (∀ head rest, l.slot = none → l.queue = head :: rest →
        l.enqueue f = { l with queue := rest ++ [f], sending := some (envelope head.type head.payload) }))) ∧
  (∀ (d : Desk) (type : Byte) (data : List Byte) (s : State) (c : ReplyCode) (code : Byte),
    (c, code) ∈ [(ReplyCode.ok, (0 : Byte)), (.busy, 1), (.full, 2), (.limit, 3), (.denied, 4), (.noJob, 5), (.badState, 6),
      (.badValue, 7), (.inUse, 8), (.enabled, 9), (.absent, 10), (.unknown, 11)] →
    replyFrame type c data = ⟨0x80, [type, code] ++ data⟩ ∧
    s.reply d type c data = s.modLink d fun l => l.enqueue ⟨0x80, [type, code] ++ data⟩) ∧
  (∀ (d : Desk) (change : Link → Link) (s : State),
    let t := s.modLink d change
    t = { s with links := t.links } ∧ t.links[d] = change s.links[d] ∧ ∀ e : Desk, e ≠ d → t.links[e] = s.links[e]) ∧
  (∀ (α : Type) (n : Nat) (v : Vector α n) (i k : Fin n) (a : α), (put v i a)[k] = if k = i then a else v[k]) ∧
  (∀ (n : Nat) (hi lo : Byte),
    let spelt : Nat := 256 * hi.toNat + lo.toNat
    (byteOf n).toNat = n % 256 ∧ be2 n = [byteOf (n / 256), byteOf n] ∧
    be3 n = [byteOf (n / 65536), byteOf (n / 256), byteOf n] ∧ nat2 hi lo = spelt ∧ (word2 hi lo).toNat = spelt ∧
    int2 hi lo = if spelt < 32768 then (spelt : Int) else (spelt : Int) - 65536) ∧
  (∀ i : Int, -32768 ≤ i → i ≤ 32767 → ∃ hi lo : Byte, be2Int i = [hi, lo] ∧ int2 hi lo = i)

/-- A hold timer that expires: while the free count is below HIGH a new HOLD frame is placed and the timer runs again with
the hold time; otherwise the link leaves hold and sends nothing (R32, R50). That a free transmitter begins the HOLD frame
within the same command is the model's reading of R24 (assumption 10).
The silence timer that expires abandons the desk's RECEIVING job with reason SILENCE, and stops; without such a job it
only stops (R34, R45).
The decisions, link by link: HOLD sets a clear hold flag, starts the hold timer with the hold time and places a HOLD frame
that carries it, and leaves a link in hold as it is; RESUME clears a set hold flag, stops the timer and places a RESUME
frame, and leaves a link out of hold. A frame placed waits in the slot, in place of one there, while the transmitter is
busy, and is begun at once while it is free. Nothing else changes (R24, R31, R48). -/
def Obligations.LinkTimersExpire : Prop :=
  (∀ (d : Desk) (s : State), (s.links[d].holdTimer).isSome = true →
     exec (.holdTimerExpiry d) s = .next (s.modLink d fun l =>
       if s.store.freeCount < s.settings.high then
         if l.sending.isSome then
           { l with holdTimer := some s.settings.holdTime, slot := some (.hold s.settings.holdTime) }
         else
           { l with holdTimer := some s.settings.holdTime, slot := none,
                    sending := some (envelope 0x81 (be2 s.settings.holdTime)) }
       else { l with hold := false, holdTimer := none })) ∧
  (∀ (d : Desk) (s : State), (s.links[d].silenceTimer).isSome = true →
     let stopped := s.modLink d fun l => { l with silenceTimer := none }
     (∀ j, Receiving d j s → exec (.silenceTimerExpiry d) s = .next (abandon d j .silence stopped)) ∧
     (NotReceiving d s → exec (.silenceTimerExpiry d) s = .next stopped)) ∧
  (∀ (d : Desk) (s : State),
     let l := s.links[d]
     let time := s.settings.holdTime
     let placed (f : FlowFrame) (bytes : List Byte) (m : Link) : Link :=
       if m.sending.isSome then { m with slot := some f } else { m with slot := none, sending := some bytes }
     s.decideHold = { s with links := s.decideHold.links } ∧ s.decideResume = { s with links := s.decideResume.links } ∧
     (l.hold = false → s.decideHold.links[d] =
       placed (.hold time) (envelope 0x81 (be2 time)) { l with hold := true, holdTimer := some time }) ∧
     (l.hold = true → s.decideHold.links[d] = l) ∧
     (l.hold = true → s.decideResume.links[d] =
       placed .resume (envelope 0x82 []) { l with hold := false, holdTimer := none }) ∧
     (l.hold = false → s.decideResume.links[d] = l))

/-- Abandonment, taken whole: the chain joins the free list, the record is FREE in every field and in no list, the desk's
silence timer stops, JOB-ABANDONED is raised with the reason's code unless it is CANCEL, and a free count that rose to
HIGH or more decides RESUME (R45, R49).
Blocks freed join the tail of the free list in their order, and no byte changes; the free count is the length of the free
list (R41). -/
def Obligations.AbandonmentFreesJob : Prop :=
  (∀ (d : Desk) (j : JobId) (why : JobReason) (s : State),
     let freed : State :=
       { s with
         store := s.store.freeBlocks (chainOf s.store s.jobs[j])
         jobs := put s.jobs j Job.free
         queue := { entry := s.queue.entry.filter (· ≠ j)
                    resume := if s.queue.resume = some j then none else s.queue.resume
                    rerun := s.queue.rerun.filter (· ≠ j) }
         links := put s.links d
           (let l := { s.links[d] with silenceTimer := none }
            if why = .cancel then l else l.notice .jobAbandoned (some j) why.code) }
     abandon d j why s =
       if s.store.freeCount < freed.store.freeCount ∧ s.settings.high ≤ freed.store.freeCount then freed.decideResume
       else freed) ∧
  (∀ (st : Store) (blocks : List Nat),
     let t := st.freeBlocks blocks
     t.freeList = st.freeList ++ blocks ∧ t.cells = st.cells ∧ st.freeCount = st.freeList.length)

/-- LINK-RESET resets the link that takes it: unsent frames dropped, hold flag, timers, flags and bad-frame counter
cleared, the RECEIVING job abandoned with LINK-RESET, and the reply OK queued last (R35).
A break condition does what LINK-RESET does, the partial frame and the kept request discarded as well, and queues no
reply; one that lasts is one break condition, in which no byte is received; the line's return to marking ends it, and
nothing else changes (R36). -/
def Obligations.LinkResetAndBreakTaken : Prop :=
  (∀ (d : Desk) (s : State), Takes d s → Allowed d 0x3F s →
     let cleared := s.modLink d fun l =>
       { l with rx := .hunt, kept := none, queue := [], slot := none, hold := false, holdTimer := none,
                silenceTimer := none, flags := 0, badFrames := 0 }
     (∀ j, Receiving d j s →
       exec (.linkReset d []) s = .next ((abandon d j .linkReset cleared).reply d 0x3F .ok [])) ∧
     (NotReceiving d s → exec (.linkReset d []) s = .next (cleared.reply d 0x3F .ok []))) ∧
  (∀ (d : Desk) (s : State),
     let cleared := s.modLink d fun l =>
       { l with rx := .hunt, spacing := true, kept := none, queue := [], slot := none, hold := false, holdTimer := none,
                silenceTimer := none, flags := 0, badFrames := 0 }
     (∀ j, s.links[d].spacing = false → Receiving d j s →
       exec (.breakCondition d) s = .next (abandon d j .linkReset cleared)) ∧
     (s.links[d].spacing = false → NotReceiving d s → exec (.breakCondition d) s = .next cleared) ∧
     (s.links[d].spacing = true →
       exec (.breakCondition d) s = .next s ∧ (∀ bytes, exec (.badFrame d bytes) s = .next s) ∧
       ∀ c f, frameOf c = some (d, f) → exec c s = .next s) ∧
     exec (.returnToMarking d) s = .next (s.modLink d fun l => { l with spacing := false }))

/-! ## Jobs: opening, text, closing (02, 03, 04) -/

/-- OPEN admitted: the lowest-numbered FREE record becomes RECEIVING with the fields of the frame, RUSH from a desk above
level 0 taken as PRIORITY, cut-at-end on for RUSH, the effective level the greater of desk and origin level, every other
field FREE; the silence timer starts; the reply carries job, class and level (R25, R55).
OPEN refused, in this order: BUSY for a desk with a RECEIVING job, LIMIT for one that owns 12 records, FULL with no
FREE record, FULL with the free count below FULL-RESERVE; nothing else is done (R25).
The modes and classes are coded 0 to 3 and 0 to 2 in the order of the table; a desk owns the records not FREE with its number;
a FREE record holds the values of the FREE column (R25, R54), and no TEXT record since a cut (the model's, assumption 13). -/
def Obligations.OpenTaken : Prop :=
  (∀ (d : Desk) (t1 t2 m c o e : Byte) (mode : Mode) (asked : JobClass) (j : JobId) (s : State),
     Takes d s → Allowed d 0x10 s →
     modeOf m.toNat = some mode → classOf c.toNat = some asked → o.toNat ≤ 3 → e.toNat ≤ 1 →
     NotReceiving d s → ownedBy d s < 12 → LowestFree j s → s.settings.fullReserve ≤ s.store.freeCount →
     let cls : JobClass := if asked = .rush ∧ 0 < s.settings.deskLevel[d] then .priority else asked
     let level : Nat := max s.settings.deskLevel[d] o.toNat
     exec (.openJob d [t1, t2, m, c, o, e]) s = .next
       { s with
         jobs := put s.jobs j
           { Job.free with
             state := .receiving, owner := d, tag := word2 t1 t2, level := level, mode := mode
             phase := if mode = .proofThenSet then .proof else .set
             cls := cls, cutAtEnd := decide (e.toNat = 1 ∨ cls = .rush) }
         links := put s.links d
           ({ s.links[d] with silenceTimer := some s.settings.silence }.enqueue
             (replyFrame 0x10 .ok [byteOf j.val, byteOf cls.code, byteOf level])) }) ∧
  (∀ (d : Desk) (t1 t2 m c o e : Byte) (mode : Mode) (asked : JobClass) (s : State),
     Takes d s → Allowed d 0x10 s →
     modeOf m.toNat = some mode → classOf c.toNat = some asked → o.toNat ≤ 3 → e.toNat ≤ 1 →
     let answer := exec (.openJob d [t1, t2, m, c, o, e]) s
     (¬ NotReceiving d s → answer = .next (s.answered d 0x10 .busy [])) ∧
     (NotReceiving d s → 12 ≤ ownedBy d s → answer = .next (s.answered d 0x10 .limit [])) ∧
     (NotReceiving d s → ownedBy d s < 12 →
       (∀ j : JobId, s.jobs[j].state ≠ .free) ∨ s.store.freeCount < s.settings.fullReserve →
       answer = .next (s.answered d 0x10 .full []))) ∧
  (∀ (d : Desk) (s : State) (n : Nat),
     modeOf n = [Mode.set, .proofOnly, .proofThenSet, .setAndProof][n]? ∧
     classOf n = [JobClass.routine, .priority, .rush][n]? ∧
     [JobClass.routine, .priority, .rush].map JobClass.code = [0, 1, 2] ∧
     ownedBy d s = (List.finRange 32).countP fun j : JobId => decide (s.jobs[j].state ≠ .free ∧ s.jobs[j].owner = d)) ∧
  Job.free =
    { state := .free, owner := 0, tag := 0, level := 0, mode := .set, phase := .set, cls := .routine, cutAtEnd := false,
      test := .none, pattern := .none, firstBlock := none, lastBlock := none, bytes := 0, saved := none, composed := 0,
      exposed := 0, delivered := 0, proofed := 0, proofedHigh := 0, proofLost := 0,
      sticky := ⟨false, false, false, false, false⟩, reverseClamped := false, held := none, heldTimer := none,
      decisions := [], waitedFont := none, reason := .none, textSinceCut := false }

/-- TEXT appended: the bytes go to the job's chain one after another, into the last block's room and then into blocks from
the head of the free list; a free count below LOW after blocks were taken decides HOLD; the reply carries the byte count
after the append (R26, R43, R44, R48).
One byte appended goes to its place in the last block; where the byte count is a multiple of 32 it goes to place 0 of the block
at the head of the free list, which leaves that list and becomes the job's last block, linked from the one before it, and the
first block of a job that had none (R40, R41, R44). -/
def Obligations.TextAppended : Prop :=
  (∀ (d : Desk) (n o1 o2 : Byte) (bytes : List Byte) (j : JobId) (s : State),
     Takes d s → Allowed d 0x11 s → 1 ≤ bytes.length → bytes.length ≤ 64 →
     n.toNat = j.val → s.jobs[j].state = .receiving → s.jobs[j].owner = d →
     nat2 o1 o2 = s.jobs[j].bytes → s.jobs[j].bytes + bytes.length ≤ 32768 →
     let new := (s.jobs[j].bytes + bytes.length + 31) / 32 - (s.jobs[j].bytes + 31) / 32
     new ≤ s.store.freeCount →
     let r := bytes.foldl appendByte (s.store, s.jobs[j])
     let kept : State := { restartSilence d s with store := r.1, jobs := put s.jobs j r.2 }
     exec (.text d (n :: o1 :: o2 :: bytes)) s = .next
       ((if 0 < new ∧ r.1.freeCount < s.settings.low then kept.decideHold else kept).reply d 0x11 .ok
         (be2 (s.jobs[j].bytes + bytes.length)))) ∧
  (∀ (st : Store) (j : Job) (b : Byte), sparseWf startLink st.links = true →
     let t := appendByte (st, j) b
     (∀ last, j.bytes % 32 ≠ 0 → j.lastBlock = some last →
       t = ({ st with cells := Memory.write st.cells (32 * last + j.bytes % 32) b }, { j with bytes := j.bytes + 1 })) ∧
     (∀ head rest, j.bytes % 32 = 0 → st.freeList = head :: rest → j.lastBlock ≠ some head →
       t.2 = { j with firstBlock := some (j.firstBlock.getD head), lastBlock := some head, bytes := j.bytes + 1 } ∧
       t.1.freeList = rest ∧ t.1.cells = Memory.write st.cells (32 * head) b ∧
       ∀ k, t.1.next k = if k = head then none else if j.lastBlock = some k then some head else st.next k))

/-- TEXT refused: a number that names no RECEIVING job of the desk is answered NO-JOB and nothing else is done; a wrong
offset abandons the job with GAP and is answered BAD-VALUE; a text past 32,768 bytes abandons it with OVERSIZE and is
answered BAD-VALUE; too few free blocks abandon it with OVERRUN and are answered FULL. The abandonment's notice comes
before the reply (R26, R43). -/
def Obligations.TextRefused : Prop :=
  ∀ (d : Desk) (n o1 o2 : Byte) (bytes : List Byte) (s : State),
    Takes d s → Allowed d 0x11 s → 1 ≤ bytes.length → bytes.length ≤ 64 →
    let answer := exec (.text d (n :: o1 :: o2 :: bytes)) s
    let heard := restartSilence d s
    ((∀ j : JobId, n.toNat = j.val → ¬ (s.jobs[j].state = .receiving ∧ s.jobs[j].owner = d)) →
      answer = .next (s.answered d 0x11 .noJob [])) ∧
    ∀ j : JobId, n.toNat = j.val → s.jobs[j].state = .receiving → s.jobs[j].owner = d →
      (nat2 o1 o2 ≠ s.jobs[j].bytes → answer = .next ((abandon d j .gap heard).reply d 0x11 .badValue [])) ∧
      (nat2 o1 o2 = s.jobs[j].bytes → 32768 < s.jobs[j].bytes + bytes.length →
        answer = .next ((abandon d j .oversize heard).reply d 0x11 .badValue [])) ∧
      (nat2 o1 o2 = s.jobs[j].bytes → s.jobs[j].bytes + bytes.length ≤ 32768 →
        s.store.freeCount < (s.jobs[j].bytes + bytes.length + 31) / 32 - (s.jobs[j].bytes + 31) / 32 →
        answer = .next ((abandon d j .overrun heard).reply d 0x11 .full []))

/-- The bytes of the galley store that a taken TEXT changes: those at the addresses its bytes are stored at, in the last
block's room or in the blocks taken; every other byte of the store reads as before (R44).
A byte written reads back, and every other address reads as before (R40). -/
def Obligations.TextStoresOnlyItsBytes : Prop :=
  (∀ (d : Desk) (n o1 o2 : Byte) (bytes : List Byte) (j : JobId) (s t : State),
     Takes d s → Allowed d 0x11 s → BytesCanonical s → bytes.length ≤ 64 →
     n.toNat = j.val → s.jobs[j].state = .receiving → s.jobs[j].owner = d →
     exec (.text d (n :: o1 :: o2 :: bytes)) s = .next t →
     ∀ a, a ∉ appendAddresses (s.store, s.jobs[j]) bytes → Memory.read t.store.cells a = Memory.read s.store.cells a) ∧
  (∀ (m : List Host.Cell) (a x : Nat) (b : Byte), Memory.wf m = true →
     Memory.read (Memory.write m a b) x = if x = a then b else Memory.read m x)

/-- The text of a job reads back: after a taken TEXT it is the text before it followed by the frame's bytes, and every
other job's text is as it was (R40, R42, R44).
The bytes are appended one after another, as a taken TEXT appends them. A job's chain is the blocks met from its first along the
next-links, one for each 32 bytes or part of them, and its text the bytes of those blocks in order, up to its byte count (R40,
R42, R43). -/
def Obligations.TextReadsBack : Prop :=
  (∀ (j : JobId) (bytes : List Byte) (s : State),
     GalleySound s → BytesCanonical s → s.jobs[j].state ≠ .free → s.jobs[j].bytes + bytes.length ≤ 32768 →
     blocksNeeded s.jobs[j].bytes bytes.length ≤ s.store.freeCount →
     let t := appendText j bytes s
     storedText t.store t.jobs[j] = storedText s.store s.jobs[j] ++ bytes ∧
     ∀ k : JobId, k ≠ j → storedText t.store t.jobs[k] = storedText s.store s.jobs[k]) ∧
  (∀ (j : JobId) (bytes : List Byte) (s : State),
     let r := bytes.foldl appendByte (s.store, s.jobs[j])
     appendText j bytes s = { s with store := r.1, jobs := put s.jobs j r.2 }) ∧
  (∀ (st : Store) (r : Job) (chain : List Nat) (count more : Nat),
     (chain.length = (r.bytes + 31) / 32 → r.firstBlock = chain.head? →
       (∀ i b c, chain[i]? = some b → chain[i + 1]? = some c → st.next b = some c) → chainOf st r = chain) ∧
     storedText st r =
       ((chainOf st r).flatMap fun b => (List.range 32).map fun i => Memory.read st.cells (32 * b + i)).take r.bytes ∧
     blocksNeeded count more = (count + more + 31) / 32 - (count + 31) / 32)

/-- CLOSE, CANCEL, RELEASE and the four forms of DECIDE that name no job of the desk with the tag are answered NO-JOB, and
nothing else is done (R27). -/
def Obligations.UnmatchedJobRefused : Prop :=
  ∀ (d : Desk) (n t1 t2 : Byte) (s : State), Takes d s → NoMatch d n (word2 t1 t2) s →
    (Allowed d 0x12 s → exec (.close d [n, t1, t2]) s = .next (s.answered d 0x12 .noJob [])) ∧
    (Allowed d 0x13 s → exec (.cancel d [n, t1, t2]) s = .next (s.answered d 0x13 .noJob [])) ∧
    (Allowed d 0x15 s → exec (.release d [n, t1, t2]) s = .next (s.answered d 0x15 .noJob [])) ∧
    ∀ a : Action, Allowed d 0x14 s →
      exec (decideCommand d n (word2 t1 t2) a) s = .next (s.answered d 0x14 .noJob [])

/-- CLOSE of a RECEIVING job is answered OK and the silence timer stops: with text the job becomes QUEUED at the tail of
the entry list, and selection follows; with none the record is freed. CLOSE of a job in any other state is answered
BAD-STATE (R27, R57). -/
def Obligations.CloseTaken : Prop :=
  ∀ (d : Desk) (n t1 t2 : Byte) (j : JobId) (s : State),
    Takes d s → Allowed d 0x12 s → Matches d n (word2 t1 t2) j s →
    let answer := exec (.close d [n, t1, t2]) s
    let stopped := s.modLink d fun l => { l with silenceTimer := none }
    (s.jobs[j].state = .receiving → s.jobs[j].bytes ≠ 0 →
      answer = .next ((trySelect
        { stopped with
          jobs := put s.jobs j { s.jobs[j] with state := .queued }
          queue := { s.queue with entry := s.queue.entry ++ [j] } }).reply d 0x12 .ok [])) ∧
    (s.jobs[j].state = .receiving → s.jobs[j].bytes = 0 →
      answer = .next ((freeJob j stopped).reply d 0x12 .ok [])) ∧
    (s.jobs[j].state ≠ .receiving → answer = .next (s.answered d 0x12 .badState []))

/-- CANCEL of a RECEIVING job abandons it with reason CANCEL and is answered OK; of a CANCELLED job it is answered
BAD-STATE; of any other it cancels the job, and is answered OK (R73). That the reply is queued after all that follows the
cancellation is the model's choice (assumption 11).
After an event whose end finds more free blocks than its beginning, and HIGH or more of them, no link is in hold (R31, R46,
R49). -/
def Obligations.CancelTaken : Prop :=
  (∀ (d : Desk) (n t1 t2 : Byte) (j : JobId) (s : State),
     Takes d s → Allowed d 0x13 s → Matches d n (word2 t1 t2) j s →
     let answer := exec (.cancel d [n, t1, t2]) s
     let heard := restartSilence d s
     (s.jobs[j].state = .receiving → answer = .next ((abandon d j .cancel heard).reply d 0x13 .ok [])) ∧
     (s.jobs[j].state = .cancelled → answer = .next (s.answered d 0x13 .badState [])) ∧
     (s.jobs[j].state ≠ .receiving → s.jobs[j].state ≠ .cancelled →
       answer = .next ((settle s.store.freeCount (cancelJob j heard)).reply d 0x13 .ok []))) ∧
  (∀ (before : Nat) (s : State),
     let t := settle before s
     before < t.store.freeCount → s.settings.high ≤ t.store.freeCount → ∀ d : Desk, t.links[d].hold = false)

/-- A job cancelled past RECEIVING: it is CANCELLED with reason CANCEL, its held record, held timer and waited font gone,
while a record of it is at work in the buffer or a line of it is in the take, and else FREE; it stands in neither the
resume slot nor the rerun list; no other job's record changes; every record of it left in the buffer is BUSY for a
consumer and due for nothing else (R74, R75). -/
def Obligations.CancelledJobLeaves : Prop :=
  ∀ (j : JobId) (s : State), s.jobs[j].state ≠ .free → (s.jobs[j].state ≠ .waitMount → s.jobs[j].waitedFont = none) →
    let t := cancelJob j s
    let gone : Job :=
      { s.jobs[j] with state := .cancelled, reason := .cancel, held := none, heldTimer := none, waitedFont := none }
    t.jobs[j] = (if t.buffer.any (fun r => r.job = j) ∨ s.film.take.any (fun g => g.job = j) then gone else Job.free) ∧
    t.queue.resume ≠ some j ∧ j ∉ t.queue.rerun ∧
    (∀ k : JobId, k ≠ j → t.jobs[k] = s.jobs[k]) ∧
    ∀ r ∈ t.buffer, r.job = j → (r.img = .busy ∨ r.proof = .busy) ∧ r.img ≠ .due ∧ r.proof ≠ .due

/-- DECIDE of a HELD job, in each of its four forms: an action that is not valid for the held exception is answered
BAD-VALUE; a valid one is recorded under the held line and exception, the held record becomes absent, the held timer stops,
the job becomes QUEUED, selection follows, and the reply is OK. A job not HELD is answered BAD-STATE (R65, R67).
The held timer of a HELD job that expires decides it as DECIDE with action DEFAULT would (R66).
The decision list: a decision recorded is found under its line and kind; where the line has an entry every other decision
stays, and where it has none the new entry holds that decision alone, every other line keeping its own but for the first
entry, the lowest line's, which a list of eight gives up; the list stays in strict line order with at most eight entries.
When a line's record is appended its decisions that were not applied leave the list, and no other decision does (R67). An
entry holds one decision, or none, for each of the five exceptions. -/
def Obligations.DecideAndHeldTimeoutTaken : Prop :=
  (∀ (d : Desk) (n t1 t2 : Byte) (a : Action) (j : JobId) (s : State),
     Takes d s → Allowed d 0x14 s → Matches d n (word2 t1 t2) j s → (∀ k, a = .breakBefore k → k < 256) →
     let answer := exec (decideCommand d n (word2 t1 t2) a) s
     let valid (h : HeldRecord) : Prop :=
       match a with
       | .proposed => True
       | .default => True
       | .ragged => h.kind ≠ .missing
       | .breakBefore k => h.kind ≠ .missing ∧ 2 ≤ k ∧ k ≤ h.words
     (∀ h, s.jobs[j].state = .held → s.jobs[j].held = some h → valid h →
       answer = .next ((trySelect
         { restartSilence d s with
           jobs := put s.jobs j
             { s.jobs[j] with
               state := .queued, held := none, heldTimer := none
               decisions := recordDecision h.line h.kind a s.jobs[j].decisions } }).reply d 0x14 .ok [])) ∧
     (∀ h, s.jobs[j].state = .held → s.jobs[j].held = some h → ¬ valid h →
       answer = .next (s.answered d 0x14 .badValue [])) ∧
     (s.jobs[j].state ≠ .held → answer = .next (s.answered d 0x14 .badState []))) ∧
  (∀ (j : JobId) (h : HeldRecord) (s : State),
     s.jobs[j].state = .held → (s.jobs[j].heldTimer).isSome = true → s.jobs[j].held = some h →
     exec (.heldTimeout j) s = .next (trySelect
       { s with
         jobs := put s.jobs j
           { s.jobs[j] with
             state := .queued, held := none, heldTimer := none
             decisions := recordDecision h.line h.kind .default s.jobs[j].decisions } })) ∧
  (∀ (line : Nat) (k : Exc) (a : Action) (ds : List Decision),
     let found (l : List Decision) (n : Nat) (e : Exc) : Option Action := (l.find? fun x => x.line = n).bind fun x => x.get e
     let t := recordDecision line k a ds
     found t line k = some a ∧
     ((∃ x ∈ ds, x.line = line) → ∀ n e, n ≠ line ∨ e ≠ k → found t n e = found ds n e) ∧
     ((∀ x ∈ ds, x.line ≠ line) →
       (∀ e, e ≠ k → found t line e = none) ∧
       (ds.length < 8 → ∀ n e, n ≠ line → found t n e = found ds n e) ∧
       (8 ≤ ds.length → ∀ n e, n ≠ line → found t n e = found (ds.drop 1) n e)) ∧
     (ds.Pairwise (fun x y => x.line < y.line) → ds.length ≤ 8 →
       t.Pairwise (fun x y => x.line < y.line) ∧ t.length ≤ 8)) ∧
  (∀ (line : Nat) (applied : ExcSet) (ds : List Decision), ds.Pairwise (fun x y => x.line < y.line) →
     let found (l : List Decision) (n : Nat) (e : Exc) : Option Action := (l.find? fun x => x.line = n).bind fun x => x.get e
     let t := dropUnapplied line applied ds
     ∀ n e, found t n e = if n = line ∧ applied.has e = false then none else found ds n e) ∧
  (∀ x : Decision, [Exc.loose, .overset, .ladder, .nobreak, .missing].map x.get = [x.l, x.o, x.h, x.n, x.m])

/-- RELEASE of a job in AWAIT-RELEASE returns it for setting from the house defaults, at the tail of the entry list, and is
answered OK; of a job in any other state it is answered BAD-STATE (R72). -/
def Obligations.ReleaseTaken : Prop :=
  ∀ (d : Desk) (n t1 t2 : Byte) (j : JobId) (s : State),
    Takes d s → Allowed d 0x15 s → Matches d n (word2 t1 t2) j s →
    let answer := exec (.release d [n, t1, t2]) s
    (s.jobs[j].state = .awaitRelease →
      answer = .next ((trySelect
        { restartSilence d s with
          jobs := put s.jobs j
            { s.jobs[j] with
              state := .queued, phase := .set
              saved := some { fmt := s.settings.house, pendingV := 0, hyphens := 0, offset := 0, line := 1 }
              composed := 0, exposed := 0, delivered := 0, sticky := ⟨false, false, false, false, false⟩
              reverseClamped := false }
          queue := { s.queue with entry := s.queue.entry.filter (· ≠ j) ++ [j] } }).reply d 0x15 .ok [])) ∧
    (s.jobs[j].state ≠ .awaitRelease → answer = .next (s.answered d 0x15 .badState []))

/-- Selection: while a job is COMPOSING, or none is QUEUED, nothing is selected. Otherwise the job selected is the first
QUEUED one of the first tier that holds one: RUSH in the rerun list, RUSH by entry, the resume slot, the rerun list,
PRIORITY by entry, ROUTINE by entry (R58); it becomes COMPOSING, and leaves the resume slot and the rerun list. The engine
takes its saved context, or at its first selection the house defaults with offset 0 and line 1, which become its saved
context too, and enters WAIT-SCAN for imaging-due lines before the scan has ended, else RUNNING while the buffer holds fewer
than 64 records, else WAIT-BUFFER; nothing else changes (R9, R59, R97).
What follows an event leaves no job of the entry list, the rerun list or the resume slot QUEUED unless some job is COMPOSING
(R58); and the engine IDLE, in WAIT-SCAN before the scan has ended, RUNNING while the buffer holds fewer than 64 records, or
in WAIT-BUFFER while it holds 64 (R97); and the engine that is IDLE only while no job is COMPOSING stays so (R58, R97).
SET and SET-AND-PROOF work, and PROOF-THEN-SET work in phase SET, has imaging-due lines (R55). What follows an event changes
nothing where there is no work for an IDLE sequencer, no proof due, no job QUEUED, the engine IDLE, no font requested, the
panel clear and no block freed. -/
def Obligations.SelectionByTier : Prop :=
  (∀ (s : State),
    (∀ j, Composing j s → trySelect s = s) ∧
    let queued (p : Job → Bool) (js : List JobId) : List JobId :=
      js.filter fun j => decide (s.jobs[j].state = .queued) && p s.jobs[j]
    let rush (r : Job) : Bool := decide (r.cls = .rush)
    let order :=
      queued rush s.queue.rerun ++ queued rush s.queue.entry ++ queued (fun _ => true) s.queue.resume.toList ++
      queued (fun r => !rush r) s.queue.rerun ++ queued (fun r => decide (r.cls = .priority)) s.queue.entry ++
      queued (fun r => decide (r.cls = .routine)) s.queue.entry
    (order = [] → trySelect s = s) ∧
    ∀ j rest, (∀ k : JobId, s.jobs[k].state ≠ .composing) → order = j :: rest →
      trySelect s = selectJob j s ∧ (selectJob j s).jobs[j].state = .composing ∧
      (selectJob j s).queue.resume ≠ some j ∧ j ∉ (selectJob j s).queue.rerun ∧
      let ctx : Context :=
        s.jobs[j].saved.getD { fmt := s.settings.house, pendingV := 0, hyphens := 0, offset := 0, line := 1 }
      let entered : EngineState :=
        if s.jobs[j].imagingDue = true ∧ s.engine.scanEnded = false then .waitScan
        else if s.buffer.length < 64 then .running else .waitBuffer
      selectJob j s =
        { s with
          jobs := put s.jobs j { s.jobs[j] with state := .composing, saved := some ctx }
          queue := { s.queue with
            resume := if s.queue.resume = some j then none else s.queue.resume
            rerun := s.queue.rerun.filter fun k => decide (k ≠ j) }
          engine := { s.engine with st := entered, owed := none, work := some ctx } }) ∧
  (∀ (before : Nat) (s : State),
     let t := settle before s
     ((∀ k : JobId, t.jobs[k].state ≠ .composing) →
       ∀ k : JobId, k ∈ t.queue.entry ∨ k ∈ t.queue.rerun ∨ t.queue.resume = some k → t.jobs[k].state ≠ .queued) ∧
     (t.engine.st = .idle ∨ (t.engine.st = .waitScan ∧ t.engine.scanEnded = false) ∨
       (t.engine.st = .running ∧ t.buffer.length < 64) ∨ (t.engine.st = .waitBuffer ∧ 64 ≤ t.buffer.length)) ∧
     ((s.engine.st = .idle → ∀ k : JobId, s.jobs[k].state ≠ .composing) →
       t.engine.st = .idle → ∀ k : JobId, t.jobs[k].state ≠ .composing)) ∧
  (∀ r : Job,
     r.imagingDue = true ↔ r.mode = .set ∨ r.mode = .setAndProof ∨ (r.mode = .proofThenSet ∧ r.phase = .set)) ∧
  (∀ (before : Nat) (s : State),
     s.imaging.st ≠ .idle ∨ (s.film.pendingCut = false ∧ ∀ r ∈ s.buffer, r.img ≠ .due ∧ r.img ≠ .busy) →
     (∀ r ∈ s.buffer, r.proof ≠ .due) → s.engine.st = .idle → (∀ j : JobId, s.jobs[j].state ≠ .queued) →
     s.mount.requests = [] → s.mount.panel = .clear → s.store.freeCount ≤ before → settle before s = s)

/-- QUERY-JOB of a record not FREE is answered OK with the record as it stands; of a number above 31, or a FREE record,
NO-JOB; nothing else is done (R39).
The codes are those of the tables: the states 1 RECEIVING to 9 FAULTED, the modes 0 to 3, the phases 0 PROOF and 1 SET, the
classes 0 to 2, the exceptions L, O, H, N, M as 1 to 5 and as bits 0 to 4, the reasons 0 none to 9 FONT-DENIED (R39, tables of
request frames and of notices). -/
def Obligations.QueryJobReports : Prop :=
  (∀ (d : Desk) (n : Byte) (s : State), Takes d s → Allowed d 0x17 s →
     let answer := exec (.queryJob d [n]) s
     (32 ≤ n.toNat → answer = .next (s.answered d 0x17 .noJob [])) ∧
     ∀ j : JobId, n.toNat = j.val →
       let r := s.jobs[j]
       (r.state = .free → answer = .next (s.answered d 0x17 .noJob [])) ∧
       (r.state ≠ .free → answer = .next (s.answered d 0x17 .ok
         ([byteOf r.state.code, byteOf r.owner.val] ++ be2 r.tag.toNat ++
          [byteOf (r.mode.code + 4 * r.phase.code), byteOf r.cls.code] ++
          be2 r.composed ++ be2 r.exposed ++ be2 r.delivered ++ be2 r.proofed ++ be2 r.proofLost ++
          [byteOf (r.sticky.bits + if r.reverseClamped then 32 else 0), byteOf ((r.held.map fun h => h.kind.code).getD 0)] ++
          be2 ((r.held.map (·.line)).getD 0) ++ [byteOf (r.waitedFont.getD 255), byteOf r.reason.code])))) ∧
  [JobState.receiving, .queued, .composing, .waitMount, .held, .awaitRelease, .composed, .cancelled, .faulted].map
    JobState.code = [1, 2, 3, 4, 5, 6, 7, 8, 9] ∧
  [Mode.set, .proofOnly, .proofThenSet, .setAndProof].map Mode.code = [0, 1, 2, 3] ∧
  [Phase.proof, .set].map Phase.code = [0, 1] ∧ [JobClass.routine, .priority, .rush].map JobClass.code = [0, 1, 2] ∧
  [Exc.loose, .overset, .ladder, .nobreak, .missing].map Exc.code = [1, 2, 3, 4, 5] ∧
  [JobReason.none, .silence, .linkReset, .gap, .overrun, .oversize, .cancel, .codeError, .fontRange, .fontDenied].map
    JobReason.code = [0, 1, 2, 3, 4, 5, 6, 7, 8, 9] ∧
  (∀ x : ExcSet, x.bits =
    (if x.l then 1 else 0) + (if x.o then 2 else 0) + (if x.h then 4 else 0) + (if x.n then 8 else 0) +
      (if x.m then 16 else 0))

/-- TEST taken: the lowest-numbered FREE record becomes a QUEUED test job of the desk at the tail of the entry list, with
tag 0, level 0, class PRIORITY, its kind and pattern; RULE and ALIGN have mode SET with cut-at-end on, PRINT has mode
PROOF-ONLY with it off; selection follows; the reply is OK with the job number (R30, R77).
TEST refused, with nothing else done: BAD-STATE for RULE and ALIGN while no position is MOUNTED, then LIMIT for a desk that
owns 12 records, then FULL with no FREE record (R30).
A test job's text is its pattern: RULE, ESC X;, ESC A 1;, and for each lens size s ESC F f;, ESC S s;, ESC L with 12 × s, a run
of k glyphs 0x5F and a QUAD; ALIGN, ESC X;, ESC A 0;, and for each font ESC F, an H, a space, an H and a SPREAD; PRINT, ESC X;,
ESC A 1;, ESC M 7200;, ESC S 6;, the glyphs 0x21 to 0x7F and a QUAD; any other job's text is its stored bytes. The k of a
run, fixed as the engine reads it, is the floor of the available width over the glyph's, from 1 to 160, and 1 for an absent
glyph; each glyph of the run is a byte read that advances the offset (R1, R77, R161, R162, R183). That a run is held as one
place, with a count of its further bytes, is the model's choice (assumption 8), and so is the count of 1 for a number
that has become a gate (assumption 52).
The fonts of a pattern are those MOUNTED, in position order (R161, R162); a glyph of a run is read as the byte 0x5F is;
a number that is no font, as one that has become a gate, has no width for any code (assumption 52). -/
def Obligations.TestMakesJob : Prop :=
  (∀ (d : Desk) (j : JobId) (s : State),
     Takes d s → Allowed d 0x37 s → ownedBy d s < 12 → LowestFree j s →
     let made (r : Job) : State :=
       (trySelect
         { restartSilence d s with
           jobs := put s.jobs j { r with state := .queued, owner := d, cls := .priority }
           queue := { s.queue with entry := s.queue.entry ++ [j] } }).reply d 0x37 .ok [byteOf j.val]
     (∀ f fs, mountedFonts s = f :: fs →
       exec (.testRule d []) s = .next (made { Job.free with cutAtEnd := true, test := .rule, pattern := .rule f }) ∧
       exec (.testAlign d []) s =
         .next (made { Job.free with cutAtEnd := true, test := .align, pattern := .align (f :: fs) })) ∧
     exec (.testPrint d []) s = .next (made { Job.free with mode := .proofOnly, test := .print })) ∧
  (∀ (d : Desk) (s : State), Takes d s → Allowed d 0x37 s →
     let refused (c : ReplyCode) := Host.Outcome.next (φ := Fault) (ρ := Refusal) (s.answered d 0x37 c [])
     let limits (c : Instr) : Prop :=
       (12 ≤ ownedBy d s → exec c s = refused .limit) ∧
       (ownedBy d s < 12 → (∀ j : JobId, s.jobs[j].state ≠ .free) → exec c s = refused .full)
     (mountedFonts s = [] → exec (.testRule d []) s = refused .badState ∧ exec (.testAlign d []) s = refused .badState) ∧
     (mountedFonts s ≠ [] → limits (.testRule d []) ∧ limits (.testAlign d [])) ∧ limits (.testPrint d [])) ∧
  (∀ (s : State) (r : Job) (f : Nat) (fs : List Nat), f ≤ 63 → (∀ g ∈ fs, g ≤ 63) →
     let digit (n : Nat) : Byte := byteOf (48 + n % 10)
     let digits (n : Nat) : List Byte :=
       if n < 10 then [digit n] else if n < 100 then [digit (n / 10), digit n]
       else if n < 1000 then [digit (n / 100), digit (n / 10), digit n]
       else [digit (n / 1000), digit (n / 100), digit (n / 10), digit n]
     let esc (letter : Byte) (arg : List Byte) : List Token := ([0x1B, letter] ++ arg ++ [0x3B]).map .byte
     let sizes : List Nat := [6, 7, 8, 9, 10, 12, 14, 18, 24, 30, 36, 48]
     (r.test = .rule → r.pattern = .rule f →
       jobText s r = esc 0x58 [] ++ esc 0x41 (digits 1) ++ sizes.flatMap fun z =>
         esc 0x46 (digits f) ++ esc 0x53 (digits z) ++ esc 0x4C (digits (12 * z)) ++ [.ruleRun f, .byte 0x0A]) ∧
     (r.test = .align → r.pattern = .align fs →
       jobText s r = esc 0x58 [] ++ esc 0x41 (digits 0) ++ fs.flatMap fun g =>
         esc 0x46 (digits g) ++ [.byte 0x48, .byte 0x20, .byte 0x48, .byte 0x0B]) ∧
     (r.test = .print →
       jobText s r = esc 0x58 [] ++ esc 0x41 (digits 1) ++ esc 0x4D (digits 7200) ++ esc 0x53 (digits 6) ++
         (List.range 95).map (fun i => .byte (byteOf (0x21 + i))) ++ [.byte 0x0A]) ∧
     (r.test = .none → jobText s r = (storedText s.store r).map .byte)) ∧
  (∀ (s : State) (j : Job) (b : Build) (f : Nat),
     let fmt := b.ctx.fmt
     let u := fontWidth s f 0x5F
     let count : Nat := if u = 0 then 1 else max 1 (min 160 (12 * (fmt.measure - fmt.indent) / (5 * u * fmt.size)))
     let further (p : Progress) : Progress :=
       match p with
       | .go c =>
         glyphByte s j { c with ctx := { c.ctx with offset := c.ctx.offset + 1, runBytes := c.ctx.runBytes + 1 } } 0x5F
       | .stop r => .stop r
     readToken s j b (.ruleRun f) = (List.range (count - 1)).foldl (fun p _ => further p)
       (glyphByte s j { b with ctx := { b.ctx with offset := b.ctx.offset + 1 } } 0x5F)) ∧
  (∀ (s : State) (j : Job) (b : Build) (c : Byte) (f : Nat),
     mountedFonts s = ((List.finRange 6).filterMap fun p : Pos => s.mount.pos[p].font) ∧
     (b.reading = .text → 0x21 ≤ c.toNat → c.toNat ≤ 0x7F →
       readByte s j b c = glyphByte s j { b with ctx := { b.ctx with offset := b.ctx.offset + 1 } } c) ∧
     ((∀ k lv st tb dn sb hy nm, descAt s f ≠ some (.font k lv st tb dn sb hy nm)) → fontWidth s f c = 0))

/-! ## Fonts and the mount table (05) -/

/-- PROBE is answered OK with 14 bytes, and nothing else is done: usable, reason, resolved font, its type, its name, its
position; a gate's target is the resolved font, and a number above 63 is reported unusable with 0xFF (R28, R82).
The access check of a number at a level: FONT-RANGE above 63 or for an EMPTY descriptor; FONT-DENIED for a gate or a font
below the level; FONT-RANGE for a gate whose target is no font, and for a font whose width table is unloaded; for
imaging-due work a wait for a font MOUNTED nowhere; else it passes, with the gate's size and leading (R80).
The line-start check of a font: FONT-RANGE where the number is no font; FONT-DENIED for a level above its own and above that
of every gate whose target it is; then the same tests of its width table and of its mounting (R81).
The types are coded 0 EMPTY, 1 TEXT, 2 DISPLAY, 3 PI, 4 GATE; a font's position is the one that is MOUNTED with it, numbered 1
to 6, and 0 for none; PROBE makes the tests of the access check that composition which is not imaging-due makes (R78, R82,
R85). -/
def Obligations.ProbeReports : Prop :=
  (∀ (d : Desk) (n : Byte) (s : State), Takes d s → Allowed d 0x16 s →
     let answer := exec (.probe d [n]) s
     let tests := accessTests s n.toNat s.settings.deskLevel[d]
     let reason : Nat := if tests = .fontRange then 1 else if tests = .fontDenied then 2 else 0
     let usable : Byte := if reason = 0 then 1 else 0
     (63 < n.toNat → answer = .next (s.answered d 0x16 .ok [0, 1, 0xFF, 0, 0, 0, 0, 0, 0, 0, 0, 0, 0, 0])) ∧
     (∀ x : Descriptor, descAt s n.toNat = some x → (∀ lv tg z l nm, x ≠ .gate lv tg z l nm) →
       answer = .next (s.answered d 0x16 .ok
         ([usable, byteOf reason, n, byteOf x.code] ++ x.name.toList ++
          [byteOf (posNumber (mountedAt s n.toNat)), 0]))) ∧
     (∀ lv tg z l nm x, descAt s n.toNat = some (.gate lv tg z l nm) → descAt s tg = some x →
       answer = .next (s.answered d 0x16 .ok
         ([usable, byteOf reason, byteOf tg, byteOf x.code] ++ x.name.toList ++
          [byteOf (posNumber (mountedAt s tg)), 0])))) ∧
  (∀ (n level : Nat) (due : Bool) (s : State),
     let isFont (f : Nat) : Prop := ∃ k lv st tb dn sb hy nm, descAt s f = some (.font k lv st tb dn sb hy nm)
     let loaded (f : Nat) : Prop :=
       ∃ k lv st tb dn sb hy nm, descAt s f = some (.font k lv st tb dn sb hy nm) ∧ (tableAt s tb).loaded = true
     let stands (f : Nat) : Prop := ∃ p : Pos, s.mount.pos[p].font = some f
     let reaches (check : Access) (f : Nat) (z l : Option Nat) : Prop :=
       (¬ loaded f → check = .fontRange) ∧
       (loaded f → due = true → ¬ stands f → check = .wait f) ∧
       (loaded f → due = false ∨ stands f → check = .pass f z l)
     (63 < n ∨ (∃ nm, descAt s n = some (.empty nm)) → accessCheck s n level due = .fontRange) ∧
     (∀ lv tg z l nm, descAt s n = some (.gate lv tg z l nm) →
       (lv < level → accessCheck s n level due = .fontDenied) ∧
       (level ≤ lv → reaches (accessCheck s n level due) tg z l)) ∧
     (∀ k lv st tb dn sb hy nm, descAt s n = some (.font k lv st tb dn sb hy nm) →
       (lv < level → accessCheck s n level due = .fontDenied) ∧
       (level ≤ lv → reaches (accessCheck s n level due) n none none) ∧
       let gated : Prop := ∃ m lw z l nw, descAt s m = some (.gate lw n z l nw) ∧ level ≤ lw
       (lv < level → ¬ gated → lineStartCheck s n level due = .fontDenied) ∧
       (level ≤ lv ∨ gated → reaches (lineStartCheck s n level due) n none none)) ∧
     (¬ isFont n → lineStartCheck s n level due = .fontRange)) ∧
  (∀ (s : State) (n t level : Nat) (p : Pos),
     (∀ m : Fin 64, n = m.val → descAt s n = some s.dir.desc[m]) ∧ (64 ≤ n → descAt s n = none) ∧
     (∀ k : Fin 24, t = k.val → tableAt s t = s.dir.tables[k]) ∧
     accessTests s n level = accessCheck s n level false ∧
     (s.mount.pos[p].font = some n ↔ ∃ c, s.mount.pos[p].st = .mounted n c) ∧
     (mountedAt s n = none ↔ ∀ q : Pos, s.mount.pos[q].font ≠ some n) ∧
     (MountedOnce s → (mountedAt s n = some p ↔ s.mount.pos[p].font = some n)) ∧
     posNumber none = 0 ∧ posNumber (some p) = p.val + 1) ∧
  (∀ (lv st tb dn sb tg : Nat) (hy : Bool) (z l : Option Nat) (nm : Name),
     let all : List Descriptor :=
       [.empty nm, .font .textFont lv st tb dn sb hy nm, .font .display lv st tb dn sb hy nm, .font .pi lv st tb dn sb hy nm,
        .gate lv tg z l nm]
     all.map Descriptor.code = [0, 1, 2, 3, 4] ∧ all.map Descriptor.name = [nm, nm, nm, nm, nm] ∧
     all.map Descriptor.strip = [none, some st, some st, some st, none])

/-- DIR-WRITE taken, for a font, a gate and an EMPTY descriptor: descriptor n becomes what the frame gives, jobs awaiting n
are released, UNKNOWN and DUPLICATE positions are classified again, what follows an event follows, and the reply is OK
(R83, R88, R95). The zero name of a cleared descriptor is the model's reading (assumption 20), and the reply's place after
what follows the model's choice (assumption 11).
DIR-WRITE refused, with nothing else done, in this order: BUSY while a settings save is in flight; BAD-VALUE for a number
above 63, a field out of its range, or a font's strip code that another font descriptor holds; IN-USE over a font that is
MOUNTED, for a gate too (R83, R88, R147); that R29's "DIR-WRITE of a gate" is the write of a number that is a gate is the
model's reading (assumption 42).
Classified again, an UNKNOWN or DUPLICATE position becomes MOUNTED with the font that now holds its code, if that font is
MOUNTED nowhere and no such position before it takes it, its last use the flash sequence; DUPLICATE if the font is MOUNTED;
UNKNOWN if no font holds the code, both with last use 0. A MOUNTED or EMPTY position is not touched, and no pin count
changes (R86, R88). A font is MOUNTED where some position is MOUNTED with it (R85). -/
def Obligations.DirWriteReplaces : Prop :=
  (∀ (d : Desk) (n : Fin 64) (s : State),
     Takes d s → Allowed d 0x30 s → (∀ m, s.serial.save ≠ some (.settings m)) →
     s.dir.desc[n].strip = none ∨ isMounted s n.val = false →
     let written (x : Descriptor) : State :=
       (settle s.store.freeCount (reclassify (releaseWaiters n.val
         { restartSilence d s with dir := { s.dir with desc := put s.dir.desc n x } }))).reply d 0x30 .ok []
     (∀ (k : FontKind) (lv st tb dn sb hy : Byte) (a b c e f g h i : Byte),
       lv.toNat ≤ 3 → 1 ≤ st.toNat → tb.toNat ≤ 23 → 64 ≤ dn.toNat → dn.toNat ≤ 192 →
       0x21 ≤ sb.toNat → sb.toNat ≤ 0x7F → hy.toNat ≤ 1 →
       (∀ m : Fin 64, m ≠ n → s.dir.desc[m].strip ≠ some st.toNat) →
       exec (.dirWriteFont d (byteOf n.val) k [lv, st, tb, dn, sb, hy, a, b, c, e, f, g, h, i]) s =
         .next (written (.font k lv.toNat st.toNat tb.toNat dn.toNat sb.toNat (decide (hy.toNat = 1))
           #v[a, b, c, e, f, g, h, i]))) ∧
     (∀ (lv tg z l1 l2 : Byte) (a b c e f g h i : Byte),
       lv.toNat ≤ 3 → tg.toNat ≤ 63 → (z.toNat = 0 ∨ (6 ≤ z.toNat ∧ z.toNat ≤ 48)) →
       (nat2 l1 l2 = 65535 ∨ nat2 l1 l2 ≤ 999) →
       exec (.dirWriteGate d (byteOf n.val) [lv, tg, z, l1, l2, a, b, c, e, f, g, h, i]) s =
         .next (written (.gate lv.toNat tg.toNat (if z.toNat = 0 then none else some z.toNat)
           (if nat2 l1 l2 = 65535 then none else some (nat2 l1 l2)) #v[a, b, c, e, f, g, h, i]))) ∧
     exec (.dirWriteClear d (byteOf n.val) []) s = .next (written (.empty (Vector.replicate 8 0)))) ∧
  (∀ (d : Desk) (n : Byte) (k : FontKind) (lv st tb dn sb hy tg z l1 l2 a b c e f g h i : Byte) (s : State),
     Takes d s → Allowed d 0x30 s → hy.toNat ≤ 1 →
     let font := exec (.dirWriteFont d n k [lv, st, tb, dn, sb, hy, a, b, c, e, f, g, h, i]) s
     let gate := exec (.dirWriteGate d n [lv, tg, z, l1, l2, a, b, c, e, f, g, h, i]) s
     let clear := exec (.dirWriteClear d n []) s
     let refused (code : ReplyCode) := Host.Outcome.next (φ := Fault) (ρ := Refusal) (s.answered d 0x30 code [])
     let fontRange : Prop :=
       lv.toNat ≤ 3 ∧ 1 ≤ st.toNat ∧ tb.toNat ≤ 23 ∧ 64 ≤ dn.toNat ∧ dn.toNat ≤ 192 ∧ 0x21 ≤ sb.toNat ∧ sb.toNat ≤ 0x7F
     let gateRange : Prop :=
       lv.toNat ≤ 3 ∧ tg.toNat ≤ 63 ∧ (z.toNat = 0 ∨ (6 ≤ z.toNat ∧ z.toNat ≤ 48)) ∧
       (nat2 l1 l2 = 65535 ∨ nat2 l1 l2 ≤ 999)
     (savingSettings s = true → font = refused .busy ∧ gate = refused .busy ∧ clear = refused .busy) ∧
     (savingSettings s = false →
       (63 < n.toNat → font = refused .badValue ∧ gate = refused .badValue ∧ clear = refused .badValue) ∧
       (¬ fontRange → font = refused .badValue) ∧ (¬ gateRange → gate = refused .badValue) ∧
       ∀ m : Fin 64, n.toNat = m.val →
         let held : Prop := ∃ o : Fin 64, o ≠ m ∧ s.dir.desc[o].strip = some st.toNat
         (held → font = refused .badValue) ∧
         (s.dir.desc[m].strip ≠ none → isMounted s m.val = true →
           (fontRange → ¬ held → font = refused .inUse) ∧ clear = refused .inUse ∧
           (gateRange → gate = refused .inUse)))) ∧
  (∀ (s : State) (p : Pos),
     let t := reclassify s
     let holds (q : Pos) (c : Nat) : Prop := s.mount.pos[q].st = .unknown c ∨ s.mount.pos[q].st = .duplicate c
     let stands (f : Nat) : Prop := ∃ q : Pos, s.mount.pos[q].font = some f
     let before (f : Nat) : Prop := ∃ q : Pos, q < p ∧ ∃ c, holds q c ∧ fontOfStrip s c = some f
     t.mount.pos[p].pins = s.mount.pos[p].pins ∧
     ((∀ c, ¬ holds p c) → t.mount.pos[p] = s.mount.pos[p]) ∧
     ∀ c, holds p c →
       (fontOfStrip s c = none → t.mount.pos[p] = { s.mount.pos[p] with st := .unknown c, lastUse := 0 }) ∧
       ∀ f, fontOfStrip s c = some f →
         (¬ stands f → ¬ before f →
           t.mount.pos[p] = { s.mount.pos[p] with st := .mounted f c, lastUse := s.mount.flashSeq }) ∧
         (stands f ∨ before f → t.mount.pos[p] = { s.mount.pos[p] with st := .duplicate c, lastUse := 0 })) ∧
  (∀ (s : State) (n : Nat),
     (isMounted s n = true ↔ ∃ p : Pos, s.mount.pos[p].font = some n) ∧
     (savingSettings s = true ↔ ∃ m, s.serial.save = some (.settings m)))

/-- WIDTH-WRITE taken: the entries of the run take the widths, every other entry and every other table stays, the loaded
flag is set, and the reply is OK. Refused, with nothing else done, in this order: BUSY while a settings save is in flight;
BAD-VALUE for a table above 23, a width above 96 or a run past code 0x7F; IN-USE for a loaded table that a MOUNTED font
uses (R84). -/
def Obligations.WidthWriteTaken : Prop :=
  (∀ (d : Desk) (t : Fin 24) (first : Byte) (ws : List Byte) (s : State),
     Takes d s → Allowed d 0x31 s → savingSettings s = false →
     1 ≤ ws.length → ws.length ≤ 64 → 0x20 ≤ first.toNat → first.toNat + ws.length ≤ 0x80 →
     (∀ w ∈ ws, w.toNat ≤ 96) → (tableMounted s t.val = false ∨ s.dir.tables[t].loaded = false) →
     ∃ v : Vector Nat 96,
       exec (.widthWrite d (byteOf t.val :: first :: ws)) s = .next
         ({ restartSilence d s with dir := { s.dir with tables := put s.dir.tables t ⟨v, true⟩ } }.reply d 0x31 .ok []) ∧
       ∀ i : Fin 96, v[i] =
         if first.toNat - 32 ≤ i.val ∧ i.val < first.toNat - 32 + ws.length
         then (ws.getD (i.val - (first.toNat - 32)) 0).toNat
         else s.dir.tables[t].widths[i]) ∧
  (∀ (d : Desk) (t first : Byte) (ws : List Byte) (s : State),
     Takes d s → Allowed d 0x31 s → 1 ≤ ws.length → ws.length ≤ 64 → 0x20 ≤ first.toNat → first.toNat ≤ 0x7F →
     let answer := exec (.widthWrite d (t :: first :: ws)) s
     let past : Prop := (∃ w ∈ ws, 96 < w.toNat) ∨ 0x80 < first.toNat + ws.length
     (savingSettings s = true → answer = .next (s.answered d 0x31 .busy [])) ∧
     (savingSettings s = false →
       (23 < t.toNat ∨ past → answer = .next (s.answered d 0x31 .badValue [])) ∧
       ∀ k : Fin 24, t.toNat = k.val → ¬ past → tableMounted s k.val = true → s.dir.tables[k].loaded = true →
         answer = .next (s.answered d 0x31 .inUse []))) ∧
  (∀ (s : State) (t : Nat),
     tableMounted s t = true ↔
       ∃ (p : Pos) (f : Nat), s.mount.pos[p].font = some f ∧
         ∃ k lv st dn sb hy nm, descAt s f = some (.font k lv st t dn sb hy nm))

/-- A strip that comes to a position: UNKNOWN where no font descriptor holds its code, DUPLICATE where its font is MOUNTED
at another position, and else MOUNTED with the present flash sequence as its last use, the jobs waiting for the font
released; an UNKNOWN or DUPLICATE position has last use 0 (R86, R95).
The font of a strip is the number of the font descriptor that holds its code, at most one of which does (R78, R86). -/
def Obligations.StripClassified : Prop :=
  (∀ (p : Pos) (c : Nat) (s : State),
     (fontOfStrip s c = none →
       classifyStrip p c s = s.modPos p fun q => { q with st := .unknown c, lastUse := 0 }) ∧
     (∀ f, fontOfStrip s c = some f →
       ((∃ r : Pos, r ≠ p ∧ s.mount.pos[r].font = some f) →
         classifyStrip p c s = s.modPos p fun q => { q with st := .duplicate c, lastUse := 0 }) ∧
       ((∀ r : Pos, r ≠ p → s.mount.pos[r].font ≠ some f) →
         classifyStrip p c s = releaseWaiters f
           (s.modPos p fun q => { q with st := .mounted f c, lastUse := s.mount.flashSeq })))) ∧
  (∀ (s : State) (c : Nat),
    (fontOfStrip s c = none ↔ ∀ n : Fin 64, s.dir.desc[n].strip ≠ some c) ∧
    (StripsDistinct s → ∀ n : Fin 64, fontOfStrip s c = some n.val ↔ s.dir.desc[n].strip = some c)) ∧
  (∀ (p : Pos) (change : Position → Position) (s : State),
    s.modPos p change = { s with mount := { s.mount with pos := put s.mount.pos p (change s.mount.pos[p]) } })

/-- STRIP-OUT of an EMPTY position changes nothing; of an unpinned one it empties it and classifies the others again; of a
pinned one it is a lock failure: the work is abandoned and the confirm timer stops, the take is spoiled and flushed, the
position emptied, and the sequencer STOPPED with STRIP-LOST, with IMAGING-STOPPED for all desks. What follows an event
follows. STRIP-IN at a position that is not EMPTY is that STRIP-OUT, taken whole, then as at an EMPTY one the strip
classified, and what follows (R87, R89, R90, R156).
A STRIP-CODE taken while a READ-STRIP is in flight, from the current position, ends it: the reading is a STRIP-IN or a
STRIP-OUT there; then, in STARTING still, the scan goes on with the next position, or, after the sixth, sets the scan-ended
flag and homes the lens; stopped by a reading that is a lock failure it does not go on; any other STRIP-CODE is ignored (R96,
R156, R160). That a lock failure which ends a film-out cut sets no film-out condition and raises no FILM-OUT, and that one
taken in STOPPED raises IMAGING-STOPPED even where the reason is the same, are the model's readings (assumptions 18 and
15). -/
def Obligations.StripEventsTaken : Prop :=
  (∀ (p : Pos) (c : Byte) (s : State),
     let emptied (t : State) : State := reclassify (t.modPos p fun q => { q with st := .empty, lastUse := 0 })
     let lost : State :=
       emptied (spoil { s with imaging := { s.imaging with move := none, retry := 0, confirmTimer := none } })
     let removed : State :=
       if 0 < s.mount.pos[p].pins then
         { lost with imaging := { lost.imaging with st := .stopped, stop := .stripLost }
                     links := lost.links.map (Link.notice .imagingStopped none 7) }
       else emptied s
     let out : State := settle s.store.freeCount removed
     let fitted (t : State) : State := settle t.store.freeCount (classifyStrip p c.toNat t)
     (s.mount.pos[p].st = .empty → exec (.stripOut p) s = .next s ∧ exec (.stripIn p c) s = .next (fitted s)) ∧
     (s.mount.pos[p].st ≠ .empty → exec (.stripOut p) s = .next out ∧ exec (.stripIn p c) s = .next (fitted out))) ∧
  (∀ (p : Pos) (code : Option Byte) (s : State),
     let read : State :=
       let ended : State := { s with imaging := { s.imaging with move := none, confirmTimer := none } }
       match code with
       | some c => takeStripIn p c ended
       | none => stripRemoved p ended
     let sent (m : ImgMove) (cmd : MechCommand) (t : State) : State :=
       { t with
         imaging := { t.imaging with move := some m, retry := 0, limit := t.settings.retryLimit
                                     confirmTimer := some t.settings.confirmTimeout }
         port := t.port ++ [cmd] }
     (s.imaging.move ≠ some .readStrip ∨ s.imaging.curPos ≠ some p → exec (.stripCode p code) s = .next s) ∧
     (s.imaging.move = some .readStrip → s.imaging.curPos = some p →
       (0 < s.mount.pos[p].pins → s.mount.pos[p].st ≠ .empty → read.imaging.st ≠ .starting) ∧
       (read.imaging.st ≠ .starting → exec (.stripCode p code) s = .next (settle read.store.freeCount read)) ∧
       (read.imaging.st = .starting → ∀ q : Pos, q.val = p.val + 1 →
         exec (.stripCode p code) s = .next (settle read.store.freeCount (sent (.turret q) (.turret q) read))) ∧
       (read.imaging.st = .starting → p.val = 5 →
         exec (.stripCode p code) s = .next (settle read.store.freeCount (sent .lensHome .lensHome
           { read with engine := { read.engine with scanEnded := true }
                       imaging := { read.imaging with stage := .lensHome } }))))) ∧
  (∀ (p : Pos) (c : Byte) (s : State),
     exec (.stripOut p) s = .next (stripRemoved p s) ∧ takeStripIn p c s = classifyStrip p c.toNat (stripRemoved p s))

/-! ## The exception dictionary (07) -/

/-- DICT-ADD: BUSY while a dictionary save is in flight; BAD-VALUE for a word or a break list that is not valid; an entry of
the word is replaced, the new one at the head of its chain, with replaced 1; with 1,024 entries in use a new word is FULL;
else it is placed at the head of its chain with replaced 0. The reply carries the count after the add (R130).
A letter is a code from 0x41 to 0x5A or from 0x61 to 0x7A; a word is valid with 2 to 24 letters, and is folded to lower case;
its bucket is its hash, which starts from 0 and becomes, letter by letter, 31 times itself plus the letter's number, a = 1 to
z = 26, modulo 256; the count in use is that of the entries of all buckets (R117, R128). -/
def Obligations.DictAddTaken : Prop :=
  (∀ (d : Desk) (w : List Byte) (bs : List Nat) (s : State),
     Takes d s → Allowed d 0x20 s → w.length + bs.length ≤ 69 → (∀ b ∈ bs, b < 256) →
     let answer := exec (.dictAdd d (byteOf w.length :: w ++ byteOf bs.length :: bs.map byteOf)) s
     let word := foldWord w
     let entry : DictEntry := ⟨word, bs, d⟩
     let chain := s.dict[bucketOf word]
     let valid : Prop :=
       2 ≤ w.length ∧ w.length ≤ 24 ∧ (∀ c ∈ w, isLetter c = true) ∧ bs.length ≤ 12 ∧ bs.Pairwise (· < ·) ∧
       ∀ b ∈ bs, 1 ≤ b ∧ b < w.length
     let entered (dict : Dictionary) (replaced : Byte) : State :=
       { restartSilence d s with dict := dict }.reply d 0x20 .ok (replaced :: be2 (dictCount dict))
     (savingDictionary s = true → answer = .next (s.answered d 0x20 .busy [])) ∧
     (savingDictionary s = false →
       (¬ valid → answer = .next (s.answered d 0x20 .badValue [])) ∧
       (valid →
         ((∃ e ∈ chain, e.word = word) →
           answer = .next (entered
             (put s.dict (bucketOf word) (entry :: chain.filter fun e => decide (e.word ≠ word))) 1)) ∧
         ((∀ e ∈ chain, e.word ≠ word) →
           (1024 ≤ dictCount s.dict → answer = .next (s.answered d 0x20 .full [])) ∧
           (dictCount s.dict < 1024 →
             answer = .next (entered (put s.dict (bucketOf word) (entry :: chain)) 0)))))) ∧
  (∀ c : Byte, isLetter c = true ↔ (0x41 ≤ c.toNat ∧ c.toNat ≤ 0x5A) ∨ (0x61 ≤ c.toNat ∧ c.toNat ≤ 0x7A)) ∧
  (∀ w : List Byte,
    (validWord w = true ↔ 2 ≤ w.length ∧ w.length ≤ 24 ∧ ∀ c ∈ w, isLetter c = true) ∧
    ((∀ c ∈ w, isLetter c = true) → foldWord w = w.map fun c => if c.toNat ≤ 0x5A then byteOf (c.toNat + 0x20) else c) ∧
    hashWord w = (bucketOf w).val ∧
    ∀ c : Byte, 0x61 ≤ c.toNat → c.toNat ≤ 0x7A →
      (bucketOf (w ++ [c])).val = ((bucketOf w).val * 31 + (c.toNat - 0x60)) % 256) ∧
  (bucketOf []).val = 0 ∧
  (∀ d : Dictionary, dictCount d = ((List.finRange 256).map fun b : Fin 256 => d[b].length).sum) ∧
  (∀ s : State, savingDictionary s = true ↔ ∃ m, s.serial.save = some (.dictionary m))

/-- DICT-DELETE: BUSY while a dictionary save is in flight; a word that is not valid is BAD-VALUE; a word without an entry is
ABSENT; the entry of any other leaves its chain, the count falling by 1, with reply OK and the count after (R131).
DICT-LOOKUP changes nothing: a word not valid is BAD-VALUE, one with no entry ABSENT; an entry's reply carries the bucket, the
writer, its positions and the rule positions of the word. It is taken while a dictionary save is in flight (R132).
The rule positions, in order: between two consonants that stand between vowels and are no digraph, and before one of six
suffixes with a vowel before it; y is a vowel but as the first letter (R122, R123).
A word's candidates: its interior marks, each run at its last, with its hard hyphens; else its hard hyphens; else, for a core
of two letters or more, letters alone, in fonts of type TEXT whose descriptor has hyphenate yes, with hyphenation on, the
positions of its dictionary entry, or else of the rules, kept by the minimums, each with a hyphen glyph in the font and size
of the letter before it (R79, R117 to R121, R124, R129). The break offered is the rightmost candidate whose prefix, with its hyphen glyph, fits; none where
that glyph is absent from its font (R125, R126). That letters and hard hyphens are judged by the code read, where a MISSING
glyph took its substitute too, is the model's reading (assumption 21). -/
def Obligations.DictDeleteAndLookupTaken : Prop :=
  (∀ (d : Desk) (w : List Byte) (s : State),
     Takes d s → Allowed d 0x21 s → w.length ≤ 70 →
     let answer := exec (.dictDelete d (byteOf w.length :: w)) s
     let word := foldWord w
     let chain := s.dict[bucketOf word]
     let left := put s.dict (bucketOf word) (chain.filter fun e => decide (e.word ≠ word))
     (savingDictionary s = true → answer = .next (s.answered d 0x21 .busy [])) ∧
     (savingDictionary s = false →
       (validWord w = false → answer = .next (s.answered d 0x21 .badValue [])) ∧
       (validWord w = true →
         ((∃ e ∈ chain, e.word = word) →
           answer = .next ({ restartSilence d s with dict := left }.reply d 0x21 .ok (be2 (dictCount left))) ∧
           (DictionarySound s → dictCount left + 1 = dictCount s.dict)) ∧
         ((∀ e ∈ chain, e.word ≠ word) → answer = .next (s.answered d 0x21 .absent []))))) ∧
  (∀ (d : Desk) (w : List Byte) (s : State),
     Takes d s → Allowed d 0x22 s → w.length ≤ 70 →
     let answer := exec (.dictLookup d (byteOf w.length :: w)) s
     let chain := s.dict[bucketOf (foldWord w)]
     (validWord w = false → answer = .next (s.answered d 0x22 .badValue [])) ∧
     (validWord w = true →
       ((∀ e ∈ chain, e.word ≠ foldWord w) → answer = .next (s.answered d 0x22 .absent [])) ∧
       ∀ e older newer, chain = newer ++ e :: older → e.word = foldWord w → (∀ x ∈ newer, x.word ≠ foldWord w) →
         let rules := rulePositions (foldWord w)
         answer = .next (s.answered d 0x22 .ok
           ([byteOf (hashWord (foldWord w)), byteOf e.writer.val, byteOf e.breaks.length] ++ e.breaks.map byteOf ++
            [byteOf rules.length] ++ rules.map byteOf)))) ∧
  (∀ (w : List Byte),
     let letter (k : Nat) : Byte := w.getD (k - 1) 0
     let vowel (k : Nat) : Prop :=
       letter k = 0x61 ∨ letter k = 0x65 ∨ letter k = 0x69 ∨ letter k = 0x6F ∨ letter k = 0x75 ∨ (letter k = 0x79 ∧ k ≠ 1)
     let digraphs : List (Byte × Byte) :=
       [(0x63, 0x68), (0x63, 0x6B), (0x67, 0x68), (0x70, 0x68), (0x73, 0x68), (0x74, 0x68), (0x77, 0x68)]
     let endings : List (List Byte) :=
       [[0x74, 0x69, 0x6F, 0x6E], [0x73, 0x69, 0x6F, 0x6E], [0x6D, 0x65, 0x6E, 0x74], [0x6E, 0x65, 0x73, 0x73],
        [0x61, 0x62, 0x6C, 0x65], [0x69, 0x6E, 0x67]]
     let between (i : Nat) : Prop :=
       2 ≤ i ∧ i + 2 ≤ w.length ∧ vowel (i - 1) ∧ ¬ vowel i ∧ ¬ vowel (i + 1) ∧ vowel (i + 2) ∧
       (letter i, letter (i + 1)) ∉ digraphs
     let ending (i : Nat) : Prop := w.drop i ∈ endings ∧ ∃ k ∈ List.range' 1 i, vowel k
     (rulePositions w).Pairwise (· < ·) ∧
     ∀ i, i ∈ rulePositions w ↔ 1 ≤ i ∧ i < w.length ∧ (between i ∨ ending i)) ∧
  (∀ (s : State) (f : Format) (is : List Item),
     let glyph (k : Nat) : Option Glyph := (is[k]?).bind fun i => match i.piece with
       | .glyph g => some g
       | _ => none
     let mark (k : Nat) : Option (Nat × Nat) := (is[k]?).bind fun i => match i.piece with
       | .mark font size => some (font, size)
       | _ => none
     let before (i : Nat) : Prop := ∃ k ∈ List.range i, (glyph k).isSome = true
     let after (i : Nat) : Prop := ∃ k ∈ List.range is.length, i < k ∧ (glyph k).isSome = true
     let marks := markCandidates is
     let hards := hardCandidates is
     let at_ (i k : Nat) (fz : Nat × Nat) (g : Glyph) : Candidate :=
       if g.read = 0x2D then ⟨k + 1, none, .hardHyphen⟩ else ⟨i + 1, some fz, .discretionary⟩
     let lastBefore (i k : Nat) : Prop := ∀ l ∈ List.range i, k < l → glyph l = none
     (∀ i ∈ List.range is.length, ∀ fz ∈ (mark i).toList, ∀ k ∈ List.range i, ∀ g ∈ (glyph k).toList,
       lastBefore i k → after i → mark (i + 1) = none → at_ i k fz g ∈ marks) ∧
     (∀ c ∈ marks, ∃ i ∈ List.range is.length, ∃ fz ∈ (mark i).toList, ∃ k ∈ List.range i, ∃ g ∈ (glyph k).toList,
       lastBefore i k ∧ after i ∧ mark (i + 1) = none ∧ c = at_ i k fz g) ∧
     (∀ i ∈ List.range is.length, (∃ g ∈ (glyph i).toList, g.read = 0x2D) → before i → after i →
       (⟨i + 1, none, .hardHyphen⟩ : Candidate) ∈ hards) ∧
     (∀ c ∈ hards, ∃ i ∈ List.range is.length,
       (∃ g ∈ (glyph i).toList, g.read = 0x2D) ∧ before i ∧ after i ∧ c = ⟨i + 1, none, .hardHyphen⟩) ∧
     (marks ≠ [] → candidates s f is = marks ++ hards) ∧ (marks = [] → hards ≠ [] → candidates s f is = hards) ∧
     (marks = [] → hards = [] →
       candidates s f is = ((eligibleCore s f is).map (coreCandidates s.dict f)).getD [])) ∧
  (∀ (s : State) (f : Format) (pre core post : List Item),
     (∀ i ∈ pre ++ post, i.letter = none) → (core.head?.bind Item.letter).isSome = true →
     (core.getLast?.bind Item.letter).isSome = true →
     let eligible : Prop :=
       f.hyphenation = true ∧ 2 ≤ core.length ∧
       ∀ i ∈ core, i.letter.isSome = true ∧ ∀ l, i.letter = some l → mayHyphenate s l.2.font = true
     (eligible → eligibleCore s f (pre ++ core ++ post) = some ⟨pre.length, core.filterMap Item.letter⟩) ∧
     (¬ eligible → eligibleCore s f (pre ++ core ++ post) = none)) ∧
  (∀ (d : Dictionary) (f : Format) (core : Core),
     let word := core.letters.map (·.1)
     let entry : Option DictEntry := d[bucketOf word].find? fun e => decide (e.word = word)
     let given : List Nat :=
       if word.length ≤ 24 then (entry.map (·.breaks)).getD (rulePositions word) else rulePositions word
     let source : BreakSource := if word.length ≤ 24 ∧ entry.isSome = true then .dictionary else .rules
     coreCandidates d f core =
       (given.filter fun p => decide (f.minBefore ≤ p ∧ p < word.length ∧ f.minAfter ≤ word.length - p)).flatMap fun p =>
         (core.letters[p - 1]?).toList.map fun l => ⟨core.at_ + p, some (l.2.font, l.2.size), source⟩) ∧
  (∀ (s : State) (f : Format) (sh : Shape) (ws : List LineWord) (before : Option Space) (is : List Item),
     let width (l : List Item) : Nat := (l.map fun i => i.piece.width).sum
     let glyphs (l : List Item) : Nat := l.countP fun i => i.piece.isGlyph
     let fit (c : Candidate) : Prop :=
       (ws.map fun w => width w.items).sum + width (is.take c.upTo) +
           (c.hyphen.map fun fz => 5 * fontWidth s fz.1 0x2D * fz.2).getD 0 +
           ((ws.filterMap (·.before) ++ before.toList).map (·.min)).sum ≤ 12 * (sh.measure - sh.indent) ∧
       (ws.map fun w => glyphs w.items).sum + glyphs (is.take c.upTo) + c.hyphen.toList.length ≤ 160
     let cs := candidates s f is
     let absent (c : Candidate) : Prop := ∃ fz ∈ c.hyphen.toList, fontWidth s fz.1 0x2D = 0
     let t := offeredBreak s f sh ws before is
     ((∀ c ∈ cs, ¬ fit c) → t = none) ∧
     ∀ c ∈ cs, fit c → (∀ x ∈ cs, fit x → x = c ∨ x.upTo < c.upTo) → t = if absent c then none else some c) ∧
  (∀ (g : Glyph) (width font size : Nat) (m : Mark),
     (isLetter g.read = true → ∃ c, foldWord [g.read] = [c] ∧ Item.letter ⟨.glyph g, m⟩ = some (c, g)) ∧
     (isLetter g.read = false → Item.letter ⟨.glyph g, m⟩ = none) ∧
     Item.letter ⟨.fixed width, m⟩ = none ∧ Item.letter ⟨.mark font size, m⟩ = none) ∧
  (∀ (s : State) (f : Nat),
     mayHyphenate s f = true ↔ ∃ lv st tb dn sb nm, descAt s f = some (.font .textFont lv st tb dn sb true nm))

/-! ## Settings, trims, saving and start-up (09, 12) -/

/-- TRIM-WRITE of a lens trim, a baseline trim and an exposure base: the value is clamped to the range of its kind, replaces
the written value of its index, and is the reply's data; an index outside its kind's range is BAD-VALUE; while a settings
save is in flight every one is BUSY (R29, R147). -/
def Obligations.TrimWritesTaken : Prop :=
  ∀ (d : Desk) (i v1 v2 : Byte) (s : State), Takes d s → Allowed d 0x32 s →
    let clamp (lo hi : Int) : Int := max lo (min hi (int2 v1 v2))
    let taken (t : Trims) (v : Int) : State :=
      { restartSilence d s with imaging := { s.imaging with written := t } }.reply d 0x32 .ok (be2Int v)
    let w := s.imaging.written
    (savingSettings s = true →
      exec (.trimWriteLens d [i, v1, v2]) s = .next (s.answered d 0x32 .busy []) ∧
      exec (.trimWriteBaseline d [i, v1, v2]) s = .next (s.answered d 0x32 .busy []) ∧
      exec (.trimWriteExposureBase d [i, v1, v2]) s = .next (s.answered d 0x32 .busy [])) ∧
    (savingSettings s = false →
      (∀ k : Lens, i.toNat = k.val + 1 →
        exec (.trimWriteLens d [i, v1, v2]) s =
          .next (taken { w with lens := put w.lens k (clamp (-200) 200) } (clamp (-200) 200)) ∧
        exec (.trimWriteExposureBase d [i, v1, v2]) s =
          .next (taken { w with expo := put w.expo k (clamp 1 255).toNat } (clamp 1 255))) ∧
      (∀ k : Pos, i.toNat = k.val + 1 →
        exec (.trimWriteBaseline d [i, v1, v2]) s =
          .next (taken { w with base := put w.base k (clamp (-50) 50) } (clamp (-50) 50))) ∧
      (i.toNat = 0 ∨ 12 < i.toNat →
        exec (.trimWriteLens d [i, v1, v2]) s = .next (s.answered d 0x32 .badValue []) ∧
        exec (.trimWriteExposureBase d [i, v1, v2]) s = .next (s.answered d 0x32 .badValue [])) ∧
      (i.toNat = 0 ∨ 6 < i.toNat →
        exec (.trimWriteBaseline d [i, v1, v2]) s = .next (s.answered d 0x32 .badValue [])))

/-- SETTING-WRITE: an identifier 0 or above 41 is BAD-VALUE, and a settings save in flight BUSY; else the value is clamped to
the setting's range and set with its owner's adjustments, the reply carries the value taken, and after a write of
FULL-RESERVE, LOW or HIGH a free count below LOW decides HOLD, one of HIGH or more RESUME (R51, R185).
The ranges are those of the table (R47, R184). The adjustments: LOW is raised to FULL-RESERVE and HIGH above LOW (R47); the cut
reserve to the cut margin (R164); max take is ten times the value (R185); a house size is the largest lens size not above
the value, the house indent is reduced to the measure, and the normal and maximum spaces are raised to the order (R9). Every
other setting takes its value, and no other changes.
The identifiers 1 to 41 name the settings in the order of the table (R184). -/
def Obligations.SettingWriteTaken : Prop :=
  (∀ (d : Desk) (i v1 v2 : Byte) (s : State), Takes d s → Allowed d 0x33 s →
    let answer := exec (.settingWrite d [i, v1, v2]) s
    (savingSettings s = true → answer = .next (s.answered d 0x33 .busy [])) ∧
    (savingSettings s = false →
      (i.toNat = 0 ∨ 41 < i.toNat → answer = .next (s.answered d 0x33 .badValue [])) ∧
      ∀ lo hi, settingRange i.toNat = some (lo, hi) →
        let t := s.settings.set i.toNat (max (lo : Int) (min hi (int2 v1 v2))).toNat
        let set : State := { restartSilence d s with settings := t }
        answer = .next ((
          if i.toNat = 10 ∨ i.toNat = 11 ∨ i.toNat = 12 then
            if s.store.freeCount < t.low then set.decideHold
            else if t.high ≤ s.store.freeCount then set.decideResume
            else set
          else set).reply d 0x33 .ok (be2 (t.get i.toNat))))) ∧
  (∀ (i : Nat),
    let ranges : List (Nat × Nat) :=
      [(0, 3), (0, 3), (0, 3), (0, 3), (1, 60), (0, 2047), (0, 2047), (0, 2047), (0, 2047), (0, 2047), (0, 2047), (1, 2048),
       (10, 1000), (0, 600), (0, 63), (6, 48), (0, 999), (720, 14400), (0, 14040), (0, 3), (0, 48), (0, 48), (0, 48), (0, 1),
       (1, 5), (2, 5), (0, 9), (0, 31), (0, 3), (100, 1000), (0, 7), (0, 255), (256, 1023), (1, 6), (0, 1023), (0, 1023),
       (720, 5760), (100, 1440), (100, 7200), (0, 7200), (1, 50)]
    settingRange i = if i = 0 then none else ranges[i - 1]?) ∧
  (∀ (n : Nat) (t : Settings),
    let h := t.house
    let low := max t.low n
    let lowSet := max n t.fullReserve
    let lowKept := max t.low t.fullReserve
    let size : Nat :=
      if n < 7 then 6 else if n < 8 then 7 else if n < 9 then 8 else if n < 10 then 9 else if n < 12 then 10
      else if n < 14 then 12 else if n < 18 then 14 else if n < 24 then 18 else if n < 30 then 24
      else if n < 36 then 30 else if n < 48 then 36 else 48
    let spaces (a b c : Nat) : Settings := { t with house := { h with spMin := a, spNorm := max a b, spMax := max (max a b) c } }
    t.set 10 n = { t with fullReserve := n, low := low, high := max t.high (low + 1) } ∧
    t.set 11 n = { t with low := lowSet, high := max t.high (lowSet + 1) } ∧
    t.set 12 n = { t with low := lowKept, high := max n (lowKept + 1) } ∧
    t.set 16 n = { t with house := { h with size := size } } ∧
    t.set 18 n = { t with house := { h with measure := n, indent := min h.indent (n - 360) } } ∧
    t.set 19 n = { t with house := { h with indent := min n (h.measure - 360) } } ∧
    t.set 21 n = spaces n h.spNorm h.spMax ∧ t.set 22 n = spaces h.spMin n h.spMax ∧ t.set 23 n = spaces h.spMin h.spNorm n ∧
    t.set 37 n = { t with maxTake := 10 * n } ∧
    t.set 38 n = { t with cutMargin := n, cutReserve := max t.cutReserve n } ∧
    t.set 39 n = { t with cutReserve := max n t.cutMargin }) ∧
  (∀ (i lo hi n k : Nat) (t : Settings), settingRange i = some (lo, hi) → lo ≤ n → n ≤ hi →
    i ∉ [10, 11, 12, 16, 18, 19, 21, 22, 23, 38, 39] →
    (t.set i n).get i = n ∧ (k ≠ i → (t.set i n).get k = t.get k)) ∧
  (∀ t : Settings,
    let h := t.house
    let align : Nat := if h.align = .justify then 0 else if h.align = .left then 1 else if h.align = .right then 2 else 3
    let rounding : Nat :=
      if h.rounding = .nearestEven then 0 else if h.rounding = .nearestUp then 1 else if h.rounding = .down then 2 else 3
    (List.range' 1 41).map t.get =
      [t.deskLevel[0], t.deskLevel[1], t.deskLevel[2], t.deskLevel[3], t.silence, t.storedMask[0].toNat,
       t.storedMask[1].toNat, t.storedMask[2].toNat, t.storedMask[3].toNat, t.fullReserve, t.low, t.high, t.holdTime,
       t.heldTimeout, h.font, h.size, h.leading, h.measure, h.indent, align, h.spMin, h.spNorm, h.spMax,
       if h.hyphenation then 1 else 0, h.minBefore, h.minAfter, h.ladder, h.mask.bits, rounding, t.confirmTimeout,
       t.retryLimit, t.soak, t.aref, t.avgK, t.weakThreshold, t.failThreshold, t.maxTake / 10, t.cutMargin, t.cutReserve,
       t.reverseLimit, t.lowThreshold])

/-- SAVE taken begins a save of its region, with the contents as they stand and the region's sum and check words 0; with a
save in flight it is BUSY (R186). That the region keeps its old contents meanwhile, with both words 0, so that a reset before
its end finds a sum and check that fail, is the model's reading (assumption 31). SAVE_COMPLETE ends it: the region holds the
contents copied, their sum and its complement, and is valid (R184, R186).
The settings region holds the settings by identifier, the descriptors, the width tables and the written trims and bases; the
dictionary region the count in use and the chains (R184). -/
def Obligations.SaveTakenAndCompleted : Prop :=
  (∀ (d : Desk) (s : State),
     (Takes d s → Allowed d 0x34 s → s.serial.save.isSome = true →
       exec (.saveSettings d []) s = .next (s.answered d 0x34 .busy []) ∧
       exec (.saveDictionary d []) s = .next (s.answered d 0x34 .busy [])) ∧
     (Takes d s → Allowed d 0x34 s → s.serial.save = none →
       exec (.saveSettings d []) s = .next (
         { restartSilence d s with
           serial := { s.serial with settings := { s.serial.settings with sum := 0, check := 0 }
                                     save := some (.settings (settingsImage s)) } }.reply d 0x34 .ok []) ∧
       exec (.saveDictionary d []) s = .next (
         { restartSilence d s with
           serial := { s.serial with dict := { s.serial.dict with sum := 0, check := 0 }
                                     save := some (.dictionary (dictImage s)) } }.reply d 0x34 .ok [])) ∧
     (∀ m, s.serial.save = some (.settings m) →
       ∃ r : SettingsRegion, exec .saveComplete s = .next { s with serial := { s.serial with settings := r, save := none } } ∧
         r.contents = m ∧ regionValid r.sum r.check (Config.settingsBytes m) = true) ∧
     (∀ m, s.serial.save = some (.dictionary m) →
       ∃ r : DictRegion, exec .saveComplete s = .next { s with serial := { s.serial with dict := r, save := none } } ∧
         r.contents = m ∧ regionValid r.sum r.check (Config.dictionaryBytes m) = true)) ∧
  (∀ s : State,
    let m := settingsImage s
    m.values.toList = (List.range' 1 41).map (fun i => (s.settings.get i : Int)) ∧ m.desc = s.dir.desc ∧
    m.tables = s.dir.tables ∧ m.trims = s.imaging.written ∧ dictImage s = ⟨dictCount s.dict, s.dict⟩)

/-- RESET: the links, the store with its free list and next-links, the jobs, the queue, the mount table, the engine, the line
buffer, the film, the proof channel and the sequencer, its current position and lens unknown and its latched trims those
written, take their start-up values, whatever stood; the settings, the directory and the trims are those loaded from the
settings region, the dictionary that of its region; the serial memory stays but for a save in flight, which ends; the
unlocks, the clear call and TURRET 1 have been sent (R85, R160, R184, R187).
A region is valid when its sum word is the 16-bit sum of its content bytes and its check word the complement of that. From a
settings region not valid come the default of every setting, EMPTY descriptors, unloaded width tables, trims 0 and bases 128;
from a dictionary region not valid no entry; from a valid one that holds what a save copied, what was saved, where that stood
in its ranges and orders (R184, R186).
The model's choices: the bytes of the store read as 0 (assumptions 4 and 34), the port is a log begun anew (12), nothing is in
transmission and no receive line stands at spacing (13), the clear call's name is zero (43), the commands that wait are kept
(38).
State.reset is such a start-up (that its serial memory has never been saved is the model's choice, assumption 2). -/
def Obligations.ResetStartsUp : Prop :=
  (∀ (s : State), ∃ t, exec .reset s = .next t ∧
    t.settings = (loadSettingsRegion s.serial.settings).settings ∧
    t.dir = (loadSettingsRegion s.serial.settings).dir ∧ t.dict = loadDictRegion s.serial.dict ∧
    t.serial = { s.serial with save := none } ∧ t.pending = s.pending ∧
    (∀ d : Desk, t.links[d] =
      { rx := .hunt, spacing := false, kept := none, queue := [], sending := none, slot := none, hold := false,
        holdTimer := none, silenceTimer := none, flags := 0, mask := t.settings.storedMask[d], badFrames := 0 }) ∧
    t.store.freeList = List.range 2048 ∧ (∀ b, t.store.next b = if b < 2047 then some (b + 1) else none) ∧
    t.store.cells = [] ∧ (∀ j : JobId, t.jobs[j] = Job.free) ∧
    t.queue = ⟨[], none, []⟩ ∧ (∀ p : Pos, t.mount.pos[p] = ⟨.empty, 0, 0⟩) ∧
    t.mount.flashSeq = 0 ∧ t.mount.requests = [] ∧ t.mount.waiting = [] ∧ t.mount.panel = .clear ∧
    t.engine = ⟨.idle, false, none, none⟩ ∧ t.buffer = [] ∧
    (t.imaging.st = .starting ∧ t.imaging.stop = .none ∧ t.imaging.stage = .scan ∧
      t.imaging.move = some (.turret 0) ∧ t.imaging.retry = 0 ∧
      t.imaging.confirmTimer = some t.settings.confirmTimeout ∧ t.imaging.curPos = none ∧ t.imaging.curLens = none ∧
      t.imaging.written = (loadSettingsRegion s.serial.settings).trims ∧ t.imaging.latched = t.imaging.written ∧
      t.imaging.a64 = 0 ∧
      t.imaging.seedPending = true ∧ t.imaging.soak = t.settings.soak ∧ t.imaging.lowRun = 0 ∧
      t.imaging.weak = false ∧ t.imaging.failCleared = false) ∧
    (t.film.loaded = false ∧ t.film.length = 0 ∧ t.film.p = 0 ∧ t.film.hw = 0 ∧ t.film.cutpos = 0 ∧ t.film.take = [] ∧
      t.film.takeUp = false ∧ t.film.doorClosed = false ∧ t.film.filmOut = false ∧ t.film.lowSent = false ∧
      t.film.pendingCut = false ∧ t.film.move = none ∧ t.film.cut = none ∧ t.film.cutTimer = none) ∧
    (t.proof.enable = false ∧ t.proof.printer = .fault ∧ t.proof.linesPerPage = 60 ∧ t.proof.header = true ∧ t.proof.marks = true ∧
      t.proof.inFlight = none ∧ t.proof.newPage = true ∧ t.proof.last = none ∧ t.proof.page = 0 ∧ t.proof.lines = 0) ∧
    t.port = [.positionUnlock 0, .positionUnlock 1, .positionUnlock 2, .positionUnlock 3, .positionUnlock 4,
      .positionUnlock 5, .mountCall none 0 (Vector.replicate 8 0), .turret 0]) ∧
  (∀ (sum check : BitVec 16) (bytes : List Byte),
    regionValid sum check bytes = true ↔ check = ~~~sum ∧ sum.toNat = (bytes.map (·.toNat)).sum % 65536) ∧
  (∀ (r : SettingsRegion), regionValid r.sum r.check (Config.settingsBytes r.contents) = false →
    let l := loadSettingsRegion r
    (List.range' 1 41).map l.settings.get =
      [0, 2, 2, 2, 20, 2047, 2047, 2047, 2047, 64, 256, 512, 200, 0, 0, 10, 110, 2880, 0, 0, 8, 12, 24, 1, 2, 3, 3, 0, 0, 400,
       3, 64, 512, 4, 300, 64, 2592, 360, 720, 2400, 12] ∧
    (∀ n : Fin 64, l.dir.desc[n] = .empty (Vector.replicate 8 0)) ∧
    (∀ k : Fin 24, l.dir.tables[k] = ⟨Vector.replicate 96 0, false⟩) ∧
    (∀ k : Lens, l.trims.lens[k] = 0 ∧ l.trims.expo[k] = 128) ∧ ∀ p : Pos, l.trims.base[p] = 0) ∧
  (∀ (r : DictRegion), regionValid r.sum r.check (Config.dictionaryBytes r.contents) = false →
    ∀ b : Fin 256, (loadDictRegion r)[b] = []) ∧
  (∀ (s : State) (r : SettingsRegion), r.contents = settingsImage s →
    regionValid r.sum r.check (Config.settingsBytes r.contents) = true →
    SettingsSound s.settings → DirectorySound s.dir → TrimsSound s.imaging.written →
    loadSettingsRegion r = ⟨s.settings, s.dir, s.imaging.written⟩) ∧
  (∀ (s : State) (r : DictRegion), r.contents = dictImage s →
    regionValid r.sum r.check (Config.dictionaryBytes r.contents) = true →
    DictionarySound s → WordsSound s.dict → loadDictRegion r = s.dict) ∧
  exec .reset State.reset = .next State.reset

/-- NOTICE-MASK sets the link's mask to the request's bits 0 to 10, and is answered OK with the mask taken (R30).
A notice raised on a link sets the flag of its kind; the NOTICE frame is queued if the kind is enabled in the link's mask
and the queue holds fewer than 12 frames, and is not made otherwise (R24, R37).
The kinds are coded 1 JOB-DELIVERED to 11 LAMP-WEAK, each with the bit one below its code in the flags and the mask; the job
reasons 0 none to 9 FONT-DENIED and the stop reasons 0 none to 8 LAMP-FAIL (tables of notices). A notice for all desks is
raised on each link (R37). -/
def Obligations.NoticesRaisedByMask : Prop :=
  (∀ (d : Desk) (a b : Byte) (s : State), Takes d s → Allowed d 0x35 s →
     let mask : BitVec 11 := BitVec.ofNat 11 (a.toNat * 256 + b.toNat)
     exec (.noticeMask d [a, b]) s =
       .next (((restartSilence d s).modLink d fun l => { l with mask := mask }).reply d 0x35 .ok (be2 mask.toNat))) ∧
  (∀ (k : NoticeKind) (job : Option JobId) (detail : Nat) (l : Link),
     let flagged : Link := { l with flags := l.flags ||| (1#11 <<< k.bit) }
     Link.notice k job detail l =
       if l.mask.getLsbD k.bit = true ∧ l.queue.length < 12 then
         flagged.enqueue ⟨0x83, [byteOf (k.bit + 1), byteOf ((job.map (·.val)).getD 255)] ++ be2 detail⟩
       else flagged) ∧
  [NoticeKind.jobDelivered, .proofDone, .jobHeld, .jobFaulted, .jobAbandoned, .mountWait, .spoiled, .filmLow, .filmOut,
    .imagingStopped, .lampWeak].map (fun k => k.bit + 1) = [1, 2, 3, 4, 5, 6, 7, 8, 9, 10, 11] ∧
  [JobReason.none, .silence, .linkReset, .gap, .overrun, .oversize, .cancel, .codeError, .fontRange, .fontDenied].map
    JobReason.code = [0, 1, 2, 3, 4, 5, 6, 7, 8, 9] ∧
  [StopReason.none, .noFilm, .filmOut, .gate, .turretFault, .lensFault, .cutFault, .stripLost, .lampFail].map
    StopReason.code = [0, 1, 2, 3, 4, 5, 6, 7, 8] ∧
  (∀ (k : NoticeKind) (detail : Nat) (s : State),
     s.noticeAll k detail = { s with links := s.links.map (Link.notice k none detail) })

/-- QUERY-MACHINE is answered OK with the controller's state as the table lays it out, and clears the link's notice flags,
which the reply carries; the bad-frame counter is not cleared (R38).
The imaging states are coded 0 STARTING, 1 STOPPED, 2 IDLE, 3 ADVANCING, 4 SETTING, 5 CUTTING, and the stop reasons 0 none to 8
LAMP-FAIL (R38, tables of notices). -/
def Obligations.QueryMachineReports : Prop :=
  (∀ (d : Desk) (s : State), Takes d s → Allowed d 0x18 s →
     let remaining := if s.film.loaded then s.film.length - s.film.hw else 0
     let position (p : Position) : List Byte :=
       match p.st with
       | .empty => [0, 0xFF, byteOf p.pins]
       | .mounted f _ => [1, byteOf f, byteOf p.pins]
       | .unknown _ => [2, 0xFF, byteOf p.pins]
       | .duplicate _ => [3, 0xFF, byteOf p.pins]
     let proof : Nat :=
       if s.proof.enable = false then 0
       else if s.proof.printer = .paperOut then 3
       else if s.proof.printer = .fault then 4
       else if s.buffer.any (fun r => r.proof = .busy) then 2
       else 1
     exec (.queryMachine d []) s = .next
       (((restartSilence d s).modLink d fun l => { l with flags := 0 }).reply d 0x18 .ok
         (be2 s.store.freeCount ++ [byteOf ((List.finRange 32).countP fun j : JobId => decide (s.jobs[j].state ≠ .free))] ++
          ((List.finRange 6).flatMap fun p : Pos => position s.mount.pos[p]) ++
          [byteOf s.imaging.st.code, byteOf s.imaging.stop.code] ++ be3 remaining ++ [byteOf s.film.take.length] ++
          be2 (min 65535 (s.film.hw - s.film.cutpos)) ++ [byteOf proof] ++
          be2 s.links[d].badFrames ++ be2 s.links[d].flags.toNat))) ∧
  [ImgState.starting, .stopped, .idle, .advancing, .setting, .cutting].map ImgState.code = [0, 1, 2, 3, 4, 5] ∧
  [StopReason.none, .noFilm, .filmOut, .gate, .turretFault, .lensFault, .cutFault, .stripLost, .lampFail].map
    StopReason.code = [0, 1, 2, 3, 4, 5, 6, 7, 8]

/-! ## Cuts and proofs asked for (10, 11) -/

/-- CUT and CUT-BUTTON each ask for one cut: with the take empty the ask is dismissed; otherwise the pending cut is set, and
an IDLE sequencer carries it out at once. CUT is answered OK in every case (R30, R146, R172). That its reply is queued after
what follows the ask is the model's choice (assumption 11).
What follows an event leaves an IDLE sequencer with no pending cut and no record of the buffer due for imaging (R138,
R146). -/
def Obligations.CutAskedFor : Prop :=
  (∀ (d : Desk) (s : State),
     let asked (t : State) : State := settle s.store.freeCount { t with film := { t.film with pendingCut := true } }
     (s.film.take = [] → exec .cutButton s = .next s) ∧
     (s.film.take ≠ [] → exec .cutButton s = .next (asked s)) ∧
     (Takes d s → Allowed d 0x36 s →
       (s.film.take = [] → exec (.cut d []) s = .next (s.answered d 0x36 .ok [])) ∧
       (s.film.take ≠ [] → exec (.cut d []) s = .next ((asked (restartSilence d s)).reply d 0x36 .ok [])))) ∧
  (∀ (before : Nat) (s : State),
     let t := settle before s
     t.imaging.st = .idle → t.film.pendingCut = false ∧ ∀ r ∈ t.buffer, r.img ≠ .due)

/-- PROOF-CONFIG is refused ENABLED while the enable is on; otherwise it sets the lines per page, clamped to 10 to 99, and
the header and the marks, each on for a byte that is not zero, and is answered OK with the three values taken (R178); that
bytes 2 to 255 are on and not BAD-VALUE is the model's reading (assumption 19).
PROOF-ENABLE is answered OK. One that asks for the enable as it stands changes nothing; on sets the enable and the
new-page flag; off clears the enable, and a record in hand is given back. What follows an event follows (R178), the reply
after it (the model's choice, assumption 11).
The header line, column by column (R181), and the proof line: line number, marks, first-space width, a blank between each and
the next, the last where text follows, and from column 17 the text, of at most 116 columns, without trailing blanks; the text has for each element a blank at a space mark, a font marker
where the font changes, and the code, 0x7F as the number sign (R182).
A number that fits its columns is printed in decimal, right-aligned, with blanks before its first digit: the line number, the
first-space width, the tag and the page number. The mode names are SET, PROOF-ONLY, PROOF-THEN-SET and SET-AND-PROOF (R181,
R182). -/
def Obligations.ProofChannelSet : Prop :=
  (∀ (d : Desk) (n h m : Byte) (s : State), Takes d s → Allowed d 0x38 s →
     let answer := exec (.proofConfig d [n, h, m]) s
     (s.proof.enable = true → answer = .next (s.answered d 0x38 .enabled [])) ∧
     (s.proof.enable = false → answer = .next (
       { restartSilence d s with
         proof := { s.proof with linesPerPage := max 10 (min 99 n.toNat), header := decide (h ≠ 0), marks := decide (m ≠ 0) }
       }.reply d 0x38 .ok [byteOf (max 10 (min 99 n.toNat)), if h ≠ 0 then 1 else 0, if m ≠ 0 then 1 else 0]))) ∧
  (∀ (d : Desk) (s : State), Takes d s → Allowed d 0x39 s →
     let heard := restartSilence d s
     let after (t : State) : State := (settle s.store.freeCount t).reply d 0x39 .ok []
     (s.proof.enable = true →
       exec (.proofEnableOn d []) s = .next (s.answered d 0x39 .ok []) ∧
       exec (.proofEnableOff d []) s =
         .next (after (giveBackPrinting { heard with proof := { s.proof with enable := false } }))) ∧
     (s.proof.enable = false →
       exec (.proofEnableOn d []) s =
         .next (after { heard with proof := { s.proof with enable := true, newPage := true } }) ∧
       exec (.proofEnableOff d []) s = .next (s.answered d 0x39 .ok []))) ∧
  (∀ (j : JobId) (r : Job) (page : Nat), page ≤ 65535 →
     let cols (a b : Nat) : List Byte := ((headerLine j r page).drop (a - 1)).take (b + 1 - a)
     (headerLine j r page).length = 58 ∧ cols 1 3 = [0x4A, 0x4F, 0x42] ∧ cols 4 4 = [0x20] ∧
     cols 5 6 = [byteOf (48 + j.val / 10), byteOf (48 + j.val % 10)] ∧ cols 7 8 = [0x20, 0x20] ∧
     cols 9 12 = [0x44, 0x45, 0x53, 0x4B] ∧ cols 13 13 = [0x20] ∧ cols 14 14 = [byteOf (48 + r.owner.val)] ∧
     cols 15 16 = [0x20, 0x20] ∧ cols 17 19 = [0x54, 0x41, 0x47] ∧ cols 20 20 = [0x20] ∧
     cols 21 25 = decimalRight 5 r.tag.toNat ∧ cols 26 27 = [0x20, 0x20] ∧ cols 28 31 = [0x4D, 0x4F, 0x44, 0x45] ∧
     cols 32 32 = [0x20] ∧ cols 33 46 = r.mode.name ++ List.replicate (14 - r.mode.name.length) 0x20 ∧
     cols 47 48 = [0x20, 0x20] ∧ cols 49 52 = [0x50, 0x41, 0x47, 0x45] ∧ cols 53 53 = [0x20] ∧
     cols 54 58 = decimalRight 5 page) ∧
  (∀ (marks : Bool) (x : TextLine) (font : Option Nat) (e : Element) (es : List Element), x.line ≤ 65535 →
     let line := proofLine marks x
     let cols (a b : Nat) : List Byte := (line.drop (a - 1)).take (b + 1 - a)
     let mark (on : Bool) (letter : Byte) : Byte := if marks = true then (if on = true then letter else 0x2E) else 0x20
     let text := elementsText none x.elements
     cols 1 5 = decimalRight 5 x.line ∧ cols 6 6 = [0x20] ∧
     cols 7 11 = [mark x.marks.l 0x4C, mark x.marks.o 0x4F, mark x.marks.h 0x48, mark x.marks.n 0x4E, mark x.marks.m 0x4D] ∧
     cols 12 12 = [0x20] ∧ cols 16 16 = (if line.drop 16 = [] then [] else [0x20]) ∧
     cols 13 15 = (match x.firstSpace with
       | some w => decimalRight 3 (min 999 w)
       | none => [0x2D, 0x2D, 0x2D]) ∧
     line.drop 16 = trimBlanks (if text.length ≤ 116 then text else text.take 115 ++ [0x3E]) ∧ line.length ≤ 132 ∧
     line.getLast? ≠ some 0x20 ∧ elementsText font [] = [] ∧
     elementsText font (e :: es) =
       (if e.space = true then [0x20] else []) ++
       (if font = some e.font then [] else [0x5B, byteOf (48 + e.font / 10 % 10), byteOf (48 + e.font % 10), 0x5D]) ++
       [if e.code = 0x7F then 0x23 else e.code] ++ elementsText (some e.font) es) ∧
  (∀ width n : Nat, 1 ≤ width → width ≤ 7 → n < 10 ^ width →
     decimalRight width n = (List.range width).map fun column =>
       let place := width - 1 - column
       if place ≠ 0 ∧ n < 10 ^ place then 0x20 else byteOf (0x30 + n / 10 ^ place % 10)) ∧
  (let letters (cs : List Char) : List Byte := cs.map fun c => byteOf c.toNat
   [Mode.set, .proofOnly, .proofThenSet, .setAndProof].map Mode.name =
     [letters ['S', 'E', 'T'], letters ['P', 'R', 'O', 'O', 'F', '-', 'O', 'N', 'L', 'Y'],
      letters ['P', 'R', 'O', 'O', 'F', '-', 'T', 'H', 'E', 'N', '-', 'S', 'E', 'T'],
      letters ['S', 'E', 'T', '-', 'A', 'N', 'D', '-', 'P', 'R', 'O', 'O', 'F']]) ∧
  (∀ text : List Byte,
     (∃ n, text = trimBlanks text ++ List.replicate n 0x20) ∧ (trimBlanks text).getLast? ≠ some 0x20)

/-- READY, PAPER-OUT and FAULT set the printer condition, the last two giving a record in hand back; ACCEPT presents the next
character of the record in hand, or, at its last, has the line printed; with no character in flight it is ignored. What
follows an event follows (R179, R180).
Given back, a record's proof field returns to DUE, or to NOT-DUE for a CANCELLED job, the character is withdrawn and the
new-page flag set; printed, it is DONE, and its job's proofed count and high mark rise; a record with nothing left to do
leaves (R139, R141, R179, R180).
A ready channel with no record in hand takes the oldest DUE one and begins it: with the new-page flag set, another job
printed last, or the page full, a form feed and the header line first, then the proof line and a new line (R180, R181). What
follows an event leaves the oldest DUE record waiting for a ready channel only while another is in hand, and not of
SET-AND-PROOF work while the channel is not ready (R139, R140). -/
def Obligations.PrinterEventsTaken : Prop :=
  (∀ s : State,
     let after (t : State) := Host.Outcome.next (φ := Fault) (ρ := Refusal) (settle s.store.freeCount t)
     exec .ready s = after { s with proof := { s.proof with printer := .ready } } ∧
     exec .paperOut s = after (giveBackPrinting { s with proof := { s.proof with printer := .paperOut } }) ∧
     exec .fault s = after (giveBackPrinting { s with proof := { s.proof with printer := .fault } }) ∧
     (s.proof.inFlight = none → exec .accept s = .next s) ∧
     (∀ b c r, s.proof.inFlight = some b → s.proof.rest = c :: r →
       exec .accept s = after { s with proof := { s.proof with inFlight := some c, rest := r } }) ∧
     (∀ b j t, s.proof.inFlight = some b → s.proof.rest = [] →
       (s.buffer.find? fun r => decide (r.proof = .busy)).map (fun r => (r.job, r.text)) = some (j, t) →
       exec .accept s = after (finishProof
         { s with proof := { s.proof with inFlight := none, lines := s.proof.lines + 1
                                          last := some (j, s.jobs[j].owner, s.jobs[j].tag) } }))) ∧
  (∀ s : State,
     let stays (r : Record) : Bool := decide (r.img = .due ∨ r.img = .busy ∨ r.proof = .due ∨ r.proof = .busy)
     let ends (f : Record → ProofField) : List Record :=
       (s.buffer.map fun r => if r.proof = .busy then { r with proof := f r } else r).filter stays
     let back := giveBackPrinting s
     let done := finishProof s
     ((∀ r ∈ s.buffer, r.proof ≠ .busy) → back = s ∧ done = s) ∧
     (∀ r, (s.buffer.find? fun r => decide (r.proof = .busy)) = some r →
       back.proof = { s.proof with inFlight := none, rest := [], newPage := true } ∧
       back.buffer = ends (fun r => if s.jobs[r.job].state = .cancelled then .notDue else .due) ∧
       done.proof = s.proof ∧ done.buffer = ends (fun _ => .done) ∧
       (s.jobs[r.job].state ≠ .composed → s.jobs[r.job].state ≠ .cancelled → s.jobs[r.job].state ≠ .faulted →
         done.jobs[r.job] =
           { s.jobs[r.job] with
             proofed := if s.jobs[r.job].proofed < 65535 then s.jobs[r.job].proofed + 1 else s.jobs[r.job].proofed
             proofedHigh := max s.jobs[r.job].proofedHigh ((r.text.map (·.line)).getD 0) }))) ∧
  (∀ (j : JobId) (x : TextLine) (img : ImgField) (s : State),
     s.proof.enable = true → s.proof.printer = .ready → (∀ r ∈ s.buffer, r.proof ≠ .busy) →
     (s.buffer.find? fun r => decide (r.proof = .due)) = some ⟨j, some x, img, .due⟩ →
     let t := runProof s
     let other : Prop := s.proof.last ≠ some (j, s.jobs[j].owner, s.jobs[j].tag)
     let new : Prop := s.proof.newPage = true ∨ other ∨ s.proof.linesPerPage ≤ s.proof.lines
     let page := if other then 1 else if s.proof.page < 65535 then s.proof.page + 1 else s.proof.page
     let start : List Byte :=
       if new then [0x0C] ++ (if s.proof.header then headerLine j s.jobs[j] page ++ [0x0D, 0x0A, 0x0D, 0x0A] else []) else []
     (t.buffer.find? fun r => decide (r.proof = .busy)) = some ⟨j, some x, img, .busy⟩ ∧
     t.proof.inFlight.toList ++ t.proof.rest = start ++ proofLine s.proof.marks x ++ [0x0D, 0x0A] ∧
     (t.proof.page, t.proof.lines, t.proof.newPage) =
       if new then (page, 0, false) else (s.proof.page, s.proof.lines, s.proof.newPage)) ∧
  (∀ (before : Nat) (s : State) (r : Record),
     let t := settle before s
     (t.buffer.find? fun r => decide (r.proof = .due)) = some r →
     (t.proof.enable = true → t.proof.printer = .ready → r.text.isSome = true → ∃ b ∈ t.buffer, b.proof = .busy) ∧
     (t.proof.enable = false ∨ t.proof.printer ≠ .ready → t.jobs[r.job].mode ≠ .setAndProof))

/-! ## Composition (06) -/

/-- A line build is taken only in RUNNING. An owed CUT record is appended and no more, the job COMPOSED where the text had
ended (R99); a QUEUED RUSH job preempts one of another class, then QUEUED in the resume slot, after a CUT record for
imaging-due work with a TEXT record since its last, else none (R62, R63); else one line is built from the saved context
(R98): at offset 0 its font is selected as by ESC F, then the text is read from the offset to a stop or to its end, where a
line in progress closes as by QUAD (R1, R5, R11).
QUAD and SPREAD end a line with an element or a fixed space; with none QUAD adds the leading to the pending move, up to +999,
and sets the hyphen count to 0, and SPREAD is dropped; marks go (R5). A space or a line's end completes the word; a
space with no glyph before it is dropped (R3); where glyphs and minimum spaces are within the available width, with at most
160 elements, the line takes the word (R101); else the line closes at the break offered, or before the word;
LADDER is raised for a break past the ladder limit, NOBREAK for a word with none in a TEXT font with hyphenation on, OVERSET
for one alone on its line, broken after its last glyph that fits, or its first (R102, R104 to R106).
An exception marks the line and is settled by its decision, by DEFAULT if masked, or by a hold; RAGGED sets the line LEFT,
BREAK-BEFORE closes it before a word, or as DEFAULT (R103, R107). MISSING takes the substitute, or width 0 (R104). A code's
width is its entry in its font's width table, one entry for each code from 0x20 to 0x7F; the substitute and the type are those
of the font's descriptor (R79, R100, R104, R105). A JUSTIFY line with more room than its spaces' maxima is LOOSE (R108, R109).
The model's readings: a space after an opening fixed space, a word of marks (23); a substitute's code (21); the forced break
not hyphenated (22); the context that judges a break (26); a line end met by an unfinished break (27); a fault at offset 0
(28); the words of a MISSING hold (29); BREAK-BEFORE as fill (30). Its choices: the place in a pattern (8); a QUAD or SPREAD
at the text's end (48); fixed spaces before a first glyph that does not fit (50). -/
def Obligations.LineBuildInOrder : Prop :=
  (∀ (j : JobId) (s : State), Composing j s →
     let after (t : State) := Host.Outcome.next (φ := Fault) (ρ := Refusal) (settle s.store.freeCount t)
     let ctx := s.jobs[j].saved.getD { fmt := s.settings.house, pendingV := 0, hyphens := 0, offset := 0, line := 1 }
     let rush : Prop := s.jobs[j].cls ≠ .rush ∧ ∃ k : JobId, s.jobs[k].state = .queued ∧ s.jobs[k].cls = .rush
     let cut : List Record := [⟨j, none, .due, .notDue⟩]
     let owed : State :=
       { s with buffer := s.buffer ++ cut, jobs := put s.jobs j { s.jobs[j] with textSinceCut := false }
                engine := { s.engine with owed := none } }
     let done : State :=
       { owed with jobs := put s.jobs j { s.jobs[j] with textSinceCut := false, state := .composed }
                   engine := { s.engine with st := .idle, owed := none, work := none } }
     let standing : Prop := s.jobs[j].imagingDue = true ∧ s.jobs[j].textSinceCut = true
     let preempted : State :=
       { s with
         buffer := if standing then s.buffer ++ cut else s.buffer
         jobs := put s.jobs j
           { s.jobs[j] with state := .queued, textSinceCut := s.jobs[j].textSinceCut && !decide standing }
         engine := { s.engine with st := .idle, owed := none, work := none }
         queue := { s.queue with resume := some j } }
     (s.engine.st ≠ .running → exec .lineBuild s = .next s) ∧
     (s.engine.st = .running → s.engine.owed = some .afterLine → exec .lineBuild s = after owed) ∧
     (s.engine.st = .running → s.engine.owed = some .atEnd → exec .lineBuild s = after (checkJob j done)) ∧
     (s.engine.st = .running → s.engine.owed = none → rush → exec .lineBuild s = after preempted) ∧
     (s.engine.st = .running → s.engine.owed = none → ¬ rush →
       exec .lineBuild s = after (takeResult j ctx (buildLine s s.jobs[j] ctx) s))) ∧
  (∀ (s : State) (j : Job) (ctx : Context) (b : Build) (x : Token) (rest : List Token),
     let none_ : ExcSet := ⟨false, false, false, false, false⟩
     let start : Build :=
       { ctx := ctx, cut := false, reading := .text, shape := none, words := [], space := none, cur := [], lastSize := none,
         checked := false, exc := ⟨none_, none_⟩ }
     let text := (jobText s j).drop (ctx.offset - ctx.runBytes)
     let go (p : Progress) (on : Build → Result) : Result :=
       match p with
       | .go t => on t
       | .stop r => r
     (ctx.offset ≠ 0 → buildLine s j ctx = readText s j text start) ∧
     (ctx.offset = 0 →
       buildLine s j ctx = go (runCommand s j start 0 .f [some ctx.fmt.font]) (readText s j text)) ∧
     (readText s j (x :: rest) b = go (readToken s j b x) (readText s j rest)) ∧
     (∀ c, x = .byte c → readToken s j b x = readByte s j b c) ∧
     (∀ r, endOfText s j b = .stop r → readText s j [] b = r) ∧
     (b.reading = .text → b.shape = none → endOfText s j b = .stop ⟨.ended ⟨b.ctx, b.cut⟩, b.exc⟩) ∧
     (∀ sh, b.reading = .text → b.shape = some sh → endOfText s j b = endLine s j b sh .quad true)) ∧
  (∀ (s : State) (j : Job) (b : Build) (sh : Shape) (by_ : ClosedBy) (atEnd : Bool),
     let words : List LineWord := b.words ++ [⟨b.space, b.cur⟩]
     let fit : Prop :=
       (words.map fun w => (w.items.map fun i => i.piece.width).sum).sum + ((words.filterMap (·.before)).map (·.min)).sum
         ≤ 12 * (sh.measure - sh.indent) ∧
       (words.map fun w => w.items.countP fun i => i.piece.isGlyph).sum ≤ 160
     let closed (ws : List LineWord) : Closed := ⟨sh, ws, by_, false, ⟨b.ctx, b.cut⟩, atEnd⟩
     let answer := endLine s j b sh by_ atEnd
     (b.shape = some sh → quadByte s j b = endLine s j b sh .quad false ∧ spreadByte s j b = endLine s j b sh .spread false) ∧
     (b.shape = none →
       quadByte s j b = .go
         { b with cur := []
                  ctx := { b.ctx with pendingV := min 999 (b.ctx.pendingV + b.ctx.fmt.leading), hyphens := 0 } } ∧
       spreadByte s j b = .go { b with cur := [] }) ∧
     (b.cur = [] → answer = justify j b (closed b.words)) ∧
     (b.cur ≠ [] → fit → answer = justify j b (closed words)) ∧
     (b.cur ≠ [] → ¬ fit → answer = wordTooWide s j b sh) ∧
     (b.lastSize = none ∨ b.cur = [] → spaceByte s j b = .go b) ∧
     (∀ size, b.lastSize = some size → b.shape = some sh → b.cur ≠ [] →
       let f := b.ctx.fmt
       (fit → spaceByte s j b = .go
         { b with words := words, cur := []
                  space := some ⟨5 * f.spMin * size, 5 * f.spNorm * size, 5 * f.spMax * size, size, ⟨b.ctx, b.cut⟩⟩ }) ∧
       (¬ fit → spaceByte s j b = wordTooWide s j b sh))) ∧
  (∀ (j : Job) (b : Build) (k : Exc),
     let entry : Option Action := (j.decisions.find? fun d => decide (d.line = b.ctx.line)).bind fun d => d.get k
     b.ruling j k = (match entry with
       | some a => .act a
       | none => if b.ctx.fmt.mask.has k = true then .hold else .act .default) ∧
     b.raise j k =
       { b with exc := ⟨b.exc.kinds.add k, if entry.isSome = true then b.exc.applied.add k else b.exc.applied⟩ }) ∧
  (∀ (s : State) (j : Job) (b : Build) (sh : Shape),
     let offered := offeredBreak s b.ctx.fmt sh b.words b.space b.cur
     let nextAt (n : Nat) : Mark := ((b.cur[n - 1]?).map (·.after)).getD ⟨b.ctx, b.cut⟩
     let before (by_ : ClosedBy) : Closed :=
       ⟨sh, b.words, by_, false, (b.space.map (·.after)).getD ⟨b.ctx, b.cut⟩, false⟩
     let hyphen (c : Candidate) : List Item :=
       c.hyphen.toList.map fun fz =>
         ⟨.glyph ⟨0x2D, 0x2D, fz.1, fz.2, 5 * fontWidth s fz.1 0x2D * fz.2⟩, nextAt c.upTo⟩
     let taken (c : Candidate) : Closed :=
       ⟨sh, b.words ++ [⟨b.space, b.cur.take c.upTo ++ hyphen c⟩], .fill, true, nextAt c.upTo, false⟩
     let shortened (n : Nat) : Closed := (closeAtWord sh (b.words ++ [⟨b.space, b.cur⟩]) n).getD (before .fill)
     let settled (k : Exc) (count : Nat) (proposed : Closed) : Progress :=
       match b.ruling j k with
       | .hold => .stop ⟨.held k count, (b.raise j k).exc⟩
       | .act .proposed => justify j (b.raise j k) proposed
       | .act .default => justify j (b.raise j k) (before .fill)
       | .act .ragged => justify j (b.raise j k) (before .ragged)
       | .act (.breakBefore n) => justify j (b.raise j k) (shortened n)
     let ladder : Prop := b.ctx.fmt.ladder ≠ 0 ∧ b.ctx.fmt.ladder ≤ b.ctx.hyphens
     let text : Prop :=
       ∃ g, (b.cur.findSome? fun i => match i.piece with
         | .glyph g => some g
         | _ => none) = some g ∧ isTextFont s g.font = true
     let answer := wordTooWide s j b sh
     (∀ c, offered = some c → b.words = [] ∨ ¬ ladder → answer = justify j b (taken c)) ∧
     (∀ c, offered = some c → b.words ≠ [] → ladder → answer = settled .ladder (b.words.length + 1) (taken c)) ∧
     (offered = none → b.words ≠ [] → b.ctx.fmt.hyphenation = true ∧ text →
       answer = settled .nobreak b.words.length (before .fill)) ∧
     (offered = none → b.words ≠ [] → ¬ (b.ctx.fmt.hyphenation = true ∧ text) → answer = justify j b (before .fill)) ∧
     (offered = none → b.words = [] → answer =
       match b.ruling j .overset with
       | .hold => .stop ⟨.held .overset 1, (b.raise j .overset).exc⟩
       | .act .ragged => justify j (b.raise j .overset) (b.atForced sh .ragged)
       | .act _ => justify j (b.raise j .overset) (b.atForced sh .fill))) ∧
  (∀ (b : Build) (sh : Shape) (by_ : ClosedBy) (n : Nat),
     let ends (m : Nat) : Prop := 1 ≤ m ∧ ((b.cur[m - 1]?).map fun i => i.piece.isGlyph) = some true
     let room (m : Nat) : Prop :=
       ((b.cur.take m).map fun i => i.piece.width).sum ≤ 12 * (sh.measure - sh.indent) ∧
       (b.cur.take m).countP (fun i => i.piece.isGlyph) ≤ 160
     ends n →
     (room n ∧ (∀ m, m ≤ b.cur.length → ends m → room m → m ≤ n)) ∨
       ((∀ m, m ≤ b.cur.length → ends m → ¬ room m) ∧ ∀ m, m ≤ b.cur.length → ends m → n ≤ m) →
     b.atForced sh by_ =
       ⟨sh, [⟨b.space, b.cur.take n⟩], by_, false, ((b.cur[n - 1]?).map (·.after)).getD ⟨b.ctx, b.cut⟩, false⟩) ∧
  (∀ (sh : Shape) (ws : List LineWord) (k : Nat),
     (k < 2 ∨ ws.length < k → closeAtWord sh ws k = none) ∧
     ∀ sp items, 2 ≤ k → ws[k - 1]? = some ⟨some sp, items⟩ →
       closeAtWord sh ws k = some ⟨sh, ws.take (k - 1), .fill, false, sp.after, false⟩) ∧
  (∀ (s : State) (j : Job) (b : Build) (c : Byte),
     let f := b.ctx.fmt
     let width (code : Byte) : Nat := fontWidth s f.font code
     let placed (t : Build) (code : Byte) (u : Nat) : Build :=
       { t with cur := t.cur ++ [⟨.glyph ⟨c, code, f.font, f.size, 5 * u * f.size⟩, ⟨b.ctx, b.cut⟩⟩]
                lastSize := some f.size }
     (width c ≠ 0 → measureGlyph s j b c = .go (placed b c (width c))) ∧
     (width c = 0 → measureGlyph s j b c =
       match b.ruling j .missing with
       | .hold => .stop ⟨.held .missing b.words.length, (b.raise j .missing).exc⟩
       | .act .proposed => .go (placed (b.raise j .missing) c 0)
       | .act _ => .go (placed (b.raise j .missing) (fontSubstitute s f.font) (width (fontSubstitute s f.font))))) ∧
  (∀ (j : Job) (b : Build) (c : Closed),
     let a : Machine.Alignment :=
       match c.by_ with
       | .fill => c.shape.align
       | .quad => if c.shape.align = .justify then .left else c.shape.align
       | .spread => .justify
       | .ragged => .left
     let sp := c.words.filterMap (·.before)
     let glyphs := (c.words.map fun w => (w.items.map fun i => i.piece.width).sum).sum
     let width := 12 * (c.shape.measure - c.shape.indent)
     let loose : Prop :=
       a = .justify ∧ ((sp = [] ∧ glyphs < width) ∨
         (sp ≠ [] ∧ ((sumMax sp - sumNorm sp : Nat) : Int) < (width : Int) - glyphs - sumNorm sp))
     (¬ loose → justify j b c = .stop ⟨c.place a, b.exc⟩) ∧
     (loose → justify j b c = .stop ⟨
       match b.ruling j .loose with
       | .hold => .held .loose c.words.length
       | .act .ragged => { c with by_ := .ragged }.place .left
       | .act (.breakBefore k) =>
         match closeAtWord c.shape c.words k with
         | some d => d.place c.shape.align
         | none => c.place .justify
       | .act _ => c.place .justify, (b.raise j .loose).exc⟩)) ∧
  (∀ (s : State) (f : Nat),
     (∀ k lv st tb dn sb hy nm, descAt s f = some (.font k lv st tb dn sb hy nm) →
       fontSubstitute s f = byteOf sb ∧
       ∀ (i : Fin 96) (c : Byte), c.toNat = 0x20 + i.val → fontWidth s f c = (tableAt s tb).widths[i]) ∧
     (isTextFont s f = true ↔ ∃ lv st tb dn sb hy nm, descAt s f = some (.font .textFont lv st tb dn sb hy nm)))

/-- A line built is appended: one TEXT record joins the buffer with the context's line number, the saved context as its
start, the leading and the pending move clamped, and the marks of the exceptions raised; its elements have their lens, and
for imaging-due work the position of their font; its imaging and proof fields are those of the job's mode and phase, no proof
for a SET-AND-PROOF line already proofed or with a proof still to come; each of its positions has one pin more, POSITION-LOCK
sent where it had none (R91, R116, R136, R137); that the locks go in position order is the model's choice (assumption 44).
Its job's composed count rises by one; the context moves to the next line, with the consecutive-hyphen count raised by a
hyphenated line and 0 after another (a line closed by SPREAD too, assumption 41); the move pending for the next line is that
of the mark, in which what the line took is gone (assumption 25); the exceptions raised join the sticky flags; decisions of
the line not applied are dropped (R103, R116, R127).
After the line, where its cut request is set, or the text ends with cut-at-end on, the CUT record of imaging-due work is
appended, or owed with the buffer full; at the end of the text the job is COMPOSED once nothing is owed, and the check of
R71 is made (R20, R69, R99).
The lens of a size is the one of the table of R13, 1 for 6 points to 12 for 48 (R13, R116). -/
def Obligations.LineAppended : Prop :=
  (∀ (j : JobId) (ctx : Context) (c : Closed) (placed : List Placed) (first : Option Nat) (e : Raised) (s : State),
     s.jobs[j].saved = some ctx →
     let bare : Closed := { c with next := { c.next with cut := false }, atEnd := false }
     let t := takeResult j ctx ⟨.line bare placed first, e⟩ s
     let whole := takeResult j ctx ⟨.line c placed first, e⟩ s
     let due : Prop := s.jobs[j].imagingDue = true
     let next : Context :=
       { c.next.ctx with line := ctx.line + 1
                         hyphens := if c.hyphenated then (if c.next.ctx.hyphens < 65535 then c.next.ctx.hyphens + 1 else c.next.ctx.hyphens) else 0 }
     (∃ (r : Record) (x : TextLine), t.buffer = s.buffer ++ [r] ∧ r.job = j ∧
       (r.img = if due then .due else .notDue) ∧
       (r.proof =
         match s.jobs[j].mode with
         | .set => .notDue
         | .proofOnly => .due
         | .proofThenSet => if s.jobs[j].phase = .set then .notDue else .due
         | .setAndProof =>
           if ctx.line ≤ s.jobs[j].proofedHigh ∨
               ∃ b ∈ s.buffer, b.job = j ∧ b.text.map (·.line) = some ctx.line ∧ (b.proof = .due ∨ b.proof = .busy)
           then .notDue else .due) ∧
       r.text = some x ∧ x.line = ctx.line ∧ x.start = ctx ∧ x.firstSpace = first ∧
       x.move = max (-7200) (min 999 ((c.shape.leading : Int) + c.shape.pendingV)) ∧
       x.hyphenated = c.hyphenated ∧ x.marks = e.kinds ∧
       x.elements.map (fun y => (y.code, y.font, y.lens, y.x, y.pos, y.space)) =
         placed.map (fun y => (y.glyph.code, y.glyph.font, lensOf y.glyph.size, toStep c.shape.rounding y.edge,
           if due then mountedAt s y.glyph.font else none, y.space)) ∧
       let pinned (p : Pos) : Prop := due ∧ ∃ y ∈ x.elements, y.pos = some p
       (∀ p : Pos, t.mount.pos[p] =
         { s.mount.pos[p] with pins := if pinned p then s.mount.pos[p].pins + 1 else s.mount.pos[p].pins }) ∧
       t.port = s.port ++
         (((List.finRange 6).filter fun p : Pos => decide (pinned p ∧ s.mount.pos[p].pins = 0)).map .positionLock)) ∧
     t.jobs[j] =
       { s.jobs[j] with
         saved := some next
         composed := if s.jobs[j].composed < 65535 then s.jobs[j].composed + 1 else s.jobs[j].composed
         sticky := s.jobs[j].sticky.union e.kinds
         textSinceCut := s.jobs[j].textSinceCut || s.jobs[j].imagingDue
         decisions := dropUnapplied ctx.line e.applied s.jobs[j].decisions } ∧
     (∀ k : JobId, k ≠ j → t.jobs[k] = s.jobs[k]) ∧ t.engine = { s.engine with work := some next } ∧
     t.queue = s.queue ∧ t.links = s.links ∧ t.film = s.film ∧ t.imaging = s.imaging ∧ t.proof = s.proof ∧ t.store = s.store ∧
     let composed (u : State) : State :=
       checkJob j
         { u with
           jobs := put u.jobs j { u.jobs[j] with state := .composed }
           engine := { u.engine with st := .idle, owed := none, work := none } }
     let cutDue : Prop := due ∧ (c.next.cut = true ∨ (c.atEnd = true ∧ s.jobs[j].cutAtEnd = true))
     let cut : State :=
       { t with buffer := t.buffer ++ [⟨j, none, .due, .notDue⟩]
                jobs := put t.jobs j { t.jobs[j] with textSinceCut := false } }
     (¬ cutDue → whole = if c.atEnd then composed t else t) ∧
     (cutDue → s.buffer.length < 63 → whole = if c.atEnd then composed cut else cut) ∧
     (cutDue → 63 ≤ s.buffer.length →
       whole = { t with engine := { t.engine with owed := some (if c.atEnd then .atEnd else .afterLine) } })) ∧
  (∀ l : Lens, lensOf ([6, 7, 8, 9, 10, 12, 14, 18, 24, 30, 36, 48].getD l.val 0) = l) ∧
  (∀ (x y : ExcSet) (k e : Exc),
    [Exc.loose, .overset, .ladder, .nobreak, .missing].map x.has = [x.l, x.o, x.h, x.n, x.m] ∧
    (x.union y).has k = (x.has k || y.has k) ∧ (x.add e).has k = (x.has k || decide (k = e)))

/-- The stops of a build: HELD with the held record, the held timer if its setting is not 0, and JOB-HELD; FAULTED with the
reason and JOB-FAULTED; WAIT-MOUNT for a font. Each leaves the saved context where it stood, the engine IDLE and the
exceptions raised in the sticky flags (R60, R64, R68).
A job that waits for a font joins the pending request for it at the tail, or has one created last while fewer than 8 are
pending, with a MOUNT-WAIT notice; with 8 it waits without one and without notice (R93).
When the jobs waiting for a font are released, those of its request and those without one become QUEUED and wait no more,
no request for it is left, no other job changes, and jobs that wait without a request have one while 8 are not pending
(R95).
What follows an event leaves each pending request with the lowest EMPTY position not suggested to an earlier one, or else the
least lately used unpinned one, or none; and the panel showing the first request's font and position, or clear (R94). -/
def Obligations.BuildStopsJob : Prop :=
  (∀ (j : JobId) (ctx : Context) (e : Raised) (s : State),
     let stopped (r : Job) : State :=
       { s with
         jobs := put s.jobs j { r with sticky := s.jobs[j].sticky.union e.kinds }
         engine := { s.engine with st := .idle, owed := none, work := none } }
     let d := s.jobs[j].owner
     (∀ k words, takeResult j ctx ⟨.held k words, e⟩ s =
       (stopped { s.jobs[j] with
         state := .held, held := some ⟨k, ctx.line, words⟩
         heldTimer := if s.settings.heldTimeout = 0 then none else some s.settings.heldTimeout }).modLink d
           (Link.notice .jobHeld (some j) ctx.line)) ∧
     (∀ why detail, takeResult j ctx ⟨.fault why detail, e⟩ s =
       checkJob j ((stopped { s.jobs[j] with state := .faulted, reason := why }).modLink d
           (Link.notice .jobFaulted (some j) detail))) ∧
     (∀ f, takeResult j ctx ⟨.wait f, e⟩ s =
       enterWaiter j f (stopped { s.jobs[j] with state := .waitMount, waitedFont := some f }))) ∧
  (∀ (j : JobId) (f : Nat) (s : State),
     let told (m : MountTable) : State := { s with mount := m }.modLink s.jobs[j].owner (Link.notice .mountWait (some j) f)
     ((∃ r ∈ s.mount.requests, r.font = f) → enterWaiter j f s = told
       { s.mount with
         requests := s.mount.requests.map fun r => if r.font = f then { r with waiters := r.waiters ++ [j] } else r }) ∧
     ((∀ r ∈ s.mount.requests, r.font ≠ f) → s.mount.requests.length < 8 →
       enterWaiter j f s = told { s.mount with requests := s.mount.requests ++ [⟨f, none, [j]⟩] }) ∧
     ((∀ r ∈ s.mount.requests, r.font ≠ f) → 8 ≤ s.mount.requests.length →
       enterWaiter j f s = { s with mount := { s.mount with waiting := s.mount.waiting ++ [j] } })) ∧
  (∀ (f : Nat) (s : State), s.mount.requests.Pairwise (fun a b => a.font ≠ b.font) →
     let t := releaseWaiters f s
     let waits (k : JobId) : Prop :=
       (∃ r ∈ s.mount.requests, r.font = f ∧ k ∈ r.waiters) ∨ (k ∈ s.mount.waiting ∧ s.jobs[k].waitedFont = some f)
     (∀ k : JobId, waits k → t.jobs[k] = { s.jobs[k] with state := .queued, waitedFont := none }) ∧
     (∀ k : JobId, ¬ waits k → t.jobs[k] = s.jobs[k]) ∧
     (∀ r ∈ t.mount.requests, r.font ≠ f) ∧
     (t.mount.waiting = [] ∨ 8 ≤ t.mount.requests.length ∨
       ∃ k rest, t.mount.waiting = k :: rest ∧ t.jobs[k].waitedFont = none) ∧
     t.mount.pos = s.mount.pos ∧ t.queue = s.queue) ∧
  (∀ (before : Nat) (s : State),
     let t := settle before s
     (match t.mount.requests with
       | [] => t.mount.panel = .clear
       | r :: _ => ∃ c n, t.mount.panel = .call r.font r.suggested c n) ∧
     ∀ earlier r later, t.mount.requests = earlier ++ r :: later →
       let left (p : Pos) : Prop := ∀ q ∈ earlier, q.suggested ≠ some p
       let empty (p : Pos) : Prop := t.mount.pos[p].st = .empty
       let unpinned (p : Pos) : Prop := t.mount.pos[p].pins = 0
       let older (q p : Pos) : Prop :=
         t.mount.pos[q].lastUse < t.mount.pos[p].lastUse ∨ (t.mount.pos[q].lastUse = t.mount.pos[p].lastUse ∧ q < p)
       (∀ p, left p → empty p → (∀ q : Pos, q < p → left q → ¬ empty q) → r.suggested = some p) ∧
       ((∀ p, left p → ¬ empty p) →
         (∀ p, left p → unpinned p → (∀ q, left q → unpinned q → ¬ older q p) → r.suggested = some p) ∧
         ((∀ p, left p → ¬ unpinned p) → r.suggested = none)))

/-- The end of a job's text with no line to close: the job becomes COMPOSED, after a CUT record where one is due, appended
while the buffer holds fewer than 64 records and owed otherwise; the completion check is made once it is COMPOSED (R20,
R69, R99).
The completion check: a COMPOSED job with no record in the buffer is complete when its imaging-due lines are all delivered,
with JOB-DELIVERED and the record FREE, or its proof lines all proofed, with PROOF-DONE and AWAIT-RELEASE for PROOF-THEN-SET
work and FREE for PROOF-ONLY; else nothing changes (R71). The freeing check: a CANCELLED or FAULTED job becomes FREE once it
has no record in the buffer and no line in the take (R75). A record that becomes FREE leaves the entry list, the resume slot
and the rerun list, and its chain joins the tail of the free list (R46, R71). -/
def Obligations.TextEndsComposition : Prop :=
  (∀ (j : JobId) (ctx : Context) (m : Mark) (e : Raised) (s : State),
     let r : Job := { s.jobs[j] with sticky := s.jobs[j].sticky.union e.kinds }
     let flagged : State := { s with jobs := put s.jobs j r }
     let composed (t : State) (q : Job) : State :=
       checkJob j
         { t with
           jobs := put t.jobs j { q with state := .composed }
           engine := { t.engine with st := .idle, owed := none, work := none } }
     let due : Prop := r.imagingDue = true ∧ r.textSinceCut = true ∧ (m.cut = true ∨ r.cutAtEnd = true)
     let t := takeResult j ctx ⟨.ended m, e⟩ s
     (¬ due → t = composed flagged r) ∧
     (due → s.buffer.length < 64 →
       t = composed { flagged with buffer := s.buffer ++ [⟨j, none, .due, .notDue⟩] } { r with textSinceCut := false }) ∧
     (due → 64 ≤ s.buffer.length → t = { flagged with engine := { s.engine with owed := some .atEnd } })) ∧
  (∀ (j : JobId) (s : State),
     let r := s.jobs[j]
     let told (k : NoticeKind) (n : Nat) : State := s.modLink r.owner (Link.notice k (some j) n)
     let gone : Prop := ∀ b ∈ s.buffer, b.job ≠ j
     let cut : Prop := ∀ g ∈ s.film.take, g.job ≠ j
     let imaging : Prop := r.mode = .set ∨ r.mode = .setAndProof ∨ (r.mode = .proofThenSet ∧ r.phase = .set)
     (r.state = .composed → imaging → gone → r.delivered = r.composed →
       checkJob j s = freeJob j (told .jobDelivered r.delivered)) ∧
     (r.state = .composed → r.mode = .proofOnly → gone → r.proofed = r.composed →
       checkJob j s = freeJob j (told .proofDone r.proofed)) ∧
     (r.state = .composed → r.mode = .proofThenSet → r.phase = .proof → gone → r.proofed = r.composed →
       checkJob j s =
         { told .proofDone r.proofed with jobs := put s.jobs j { r with state := .awaitRelease } }) ∧
     (r.state = .composed → (¬ gone ∨ (imaging ∧ r.delivered ≠ r.composed) ∨ (¬ imaging ∧ r.proofed ≠ r.composed)) →
       checkJob j s = s) ∧
     (r.state = .cancelled ∨ r.state = .faulted →
       (gone → cut → checkJob j s = freeJob j s) ∧ (¬ (gone ∧ cut) → checkJob j s = s)) ∧
     (r.state ≠ .composed → r.state ≠ .cancelled → r.state ≠ .faulted → checkJob j s = s)) ∧
  (∀ (j : JobId) (s : State),
     let t := freeJob j s
     t.jobs = put s.jobs j Job.free ∧ t.store.freeList = s.store.freeList ++ chainOf s.store s.jobs[j] ∧
     t.queue.entry = s.queue.entry.filter (· ≠ j) ∧ t.queue.rerun = s.queue.rerun.filter (· ≠ j) ∧
     t.queue.resume ≠ some j ∧ (s.queue.resume ≠ some j → t.queue.resume = s.queue.resume))

/-- An ignored byte read outside a command advances the text offset and changes no other field of the build (R6). -/
def Obligations.IgnoredByteAdvances : Prop :=
  ∀ (s : State) (j : Job) (b : Build) (c : Byte),
    b.reading = .text → (c.toNat ≤ 0x09 ∨ (0x0C ≤ c.toNat ∧ c.toNat ≤ 0x1A) ∨ c.toNat = 0x1C ∨ c.toNat = 0x1D ∨ 0x80 ≤ c.toNat) →
    readByte s j b c = .go { b with ctx := { b.ctx with offset := b.ctx.offset + 1 } }

/-- The text's commands. ESC sets, for a number given, the size to the largest lens size not above it (S), the leading to at
most 999 (L), the measure to twice it within 360 to 7,200, the indent held to the measure (M), the indent to twice it within
the measure (I), the alignment (A) and the rounding (R) by its code, the three spaces to at most 48, then put in order (W),
the hyphenation fields in their ranges (H), and the pending vertical move, lowered by at most 7,200 and no lower than −7,200
(V); ESC C sets the cut request. An argument that is empty, or that the list does not reach, leaves its field; those beyond
the command's own are disregarded (R7, R13 to R18, R20); that ESC I against an odd measure rounds down is the model's reading
(assumption 36). ESC F selects a font by the access check: a fault or a wait at the ESC byte, or the font, with the size and
leading of its gate (R12). ESC X unmasks the letters it names (R19).
A byte of the text is by its class a QUAD 0x0A, a SPREAD 0x0B, an ESC, a FIXED SPACE 0x1E, of the normal space at the current
size, a mark 0x1F, an interword space 0x20, or a glyph, 0x21 to 0x7F (R1 to R5, R100). The first glyph or fixed space in a
font that the line has not selected makes the line-start check, whose fault carries that byte's offset (R68, R81); the line's
first takes the line's shape and the pending move, and a line begun keeps its shape (R10); the pending move is then 0 in the
working context (the model's reading, assumption 25).
The reader: ESC, one of twelve upper-case letters, digits and commas, the semicolon at which the command is carried out whole;
a number of more than five digits or above 65,535 is 65,535; any other byte, or the text's end, is CODE-ERROR at the ESC byte
(R7, R8). -/
def Obligations.AlignmentAndRoundingSet : Prop :=
  (∀ (s : State) (j : Job) (b : Build) (esc : Nat) (args : List (Option Nat)),
     let f := b.ctx.fmt
     let arg (k : Nat) : Option Nat := args.getD k none
     let a0 := arg 0
     let a1 := arg 1
     let a2 := arg 2
     let a3 := arg 3
     let run (cmd : Letter) : Progress := runCommand s j b esc cmd args
     let set (g : Format) : Progress := .go { b with reading := .text, ctx := { b.ctx with fmt := g } }
     let min48 (a : Option Nat) (old : Nat) : Nat := (a.map (min 48)).getD old
     let norm := max (min48 a0 f.spMin) (min48 a1 f.spNorm)
     let size (n : Nat) : Nat :=
       if n < 7 then 6 else if n < 8 then 7 else if n < 9 then 8 else if n < 10 then 9 else if n < 12 then 10
       else if n < 14 then 12 else if n < 18 then 14 else if n < 24 then 18 else if n < 30 then 24
       else if n < 36 then 30 else if n < 48 then 36 else 48
     (a0 = none → ∀ cmd, cmd ∈ [Letter.f, .s, .l, .m, .i, .a, .r, .v] → run cmd = set f) ∧
     (∀ n, a0 = some n →
       run .s = set { f with size := size n } ∧
       run .l = set { f with leading := min 999 n } ∧
       (let m := 2 * max 360 (min 7200 n)
        run .m = set { f with measure := m, indent := min f.indent (m - 360) }) ∧
       run .i = set { f with indent := 2 * min n ((f.measure - 360) / 2) } ∧
       run .a = set
         { f with align := if n = 0 then .justify else if n = 1 then .left else if n = 2 then .right else .center } ∧
       run .r = set
         { f with rounding := if n = 0 then .nearestEven else if n = 1 then .nearestUp else if n = 2 then .down else .up } ∧
       run .v = .go { b with reading := .text, ctx := { b.ctx with pendingV := max (-7200) (b.ctx.pendingV - min 7200 n) } } ∧
       run .f =
         match accessCheck s n j.level j.imagingDue with
         | .pass font z l =>
           let g := { f with font := font, size := (z.map size).getD f.size, leading := (l.map (min 999)).getD f.leading }
           .go { b with reading := .text, ctx := { b.ctx with fmt := g }, checked := true }
         | .fontRange => .stop ⟨.fault .fontRange esc, b.exc⟩
         | .fontDenied => .stop ⟨.fault .fontDenied esc, b.exc⟩
         | .wait g => .stop ⟨.wait g, b.exc⟩) ∧
     run .w = set { f with spMin := min48 a0 f.spMin, spNorm := norm, spMax := max norm (min48 a2 f.spMax) } ∧
     run .h = set
       { f with hyphenation := (a0.map fun n => decide (n ≠ 0)).getD f.hyphenation
                minBefore := (a1.map fun n => max 1 (min 5 n)).getD f.minBefore
                minAfter := (a2.map fun n => max 2 (min 5 n)).getD f.minAfter
                ladder := (a3.map (min 9)).getD f.ladder } ∧
     run .c = .go { b with reading := .text, cut := true }) ∧
  (∀ (s : State) (j : Job) (b : Build) (c : Byte),
     let next : Build := { b with ctx := { b.ctx with offset := b.ctx.offset + 1 } }
     let read (r : Reading) : Progress := .go { next with reading := r }
     let broken (esc : Nat) : Progress := .stop ⟨.fault .codeError esc, b.exc⟩
     let letters : List (Byte × Letter) :=
       [(0x46, .f), (0x53, .s), (0x4C, .l), (0x4D, .m), (0x49, .i), (0x41, .a), (0x57, .w), (0x48, .h), (0x52, .r),
        (0x56, .v), (0x43, .c)]
     let kinds : List (Byte × Exc) := [(0x4C, .loose), (0x4F, .overset), (0x48, .ladder), (0x4E, .nobreak), (0x4D, .missing)]
     let answer := readByte s j b c
     (b.reading = .text → c = 0x1B → answer = read (.letter b.ctx.offset)) ∧
     (b.reading = .text →
       let f := b.ctx.fmt
       let shaped : Build :=
         match b.shape with
         | some _ => { next with checked := true }
         | none =>
           { next with
             shape := some ⟨f.measure, f.indent, f.align, f.rounding, f.leading, b.ctx.pendingV⟩
             ctx := { next.ctx with pendingV := 0 }, checked := true }
       let piece (t : Build) (p : Piece) : Progress := .go { t with cur := t.cur ++ [⟨p, ⟨t.ctx, t.cut⟩⟩] }
       let begun (go : Progress) : Progress :=
         if b.checked = true then go
         else
           match lineStartCheck s f.font j.level j.imagingDue with
           | .pass .. => go
           | .fontRange => .stop ⟨.fault .fontRange b.ctx.offset, b.exc⟩
           | .fontDenied => .stop ⟨.fault .fontDenied b.ctx.offset, b.exc⟩
           | .wait g => .stop ⟨.wait g, b.exc⟩
       (c = 0x0A → answer = quadByte s j next) ∧ (c = 0x0B → answer = spreadByte s j next) ∧
       (c = 0x1E → answer = begun (piece shaped (.fixed (5 * f.spNorm * f.size)))) ∧
       (c = 0x1F → answer = piece next (.mark f.font f.size)) ∧ (c = 0x20 → answer = spaceByte s j next) ∧
       (0x21 ≤ c.toNat → c.toNat ≤ 0x7F → answer = begun (measureGlyph s j shaped c))) ∧
     (∀ esc, b.reading = .letter esc →
       (∀ cmd, (c, cmd) ∈ letters → answer = read (.args esc cmd [] 0 0)) ∧
       (c = 0x58 → answer = read (.letters esc ⟨false, false, false, false, false⟩)) ∧
       (c ≠ 0x58 → (∀ cmd, (c, cmd) ∉ letters) → answer = broken esc)) ∧
     (∀ esc cmd done digits value, b.reading = .args esc cmd done digits value →
       let arg : Option Nat :=
         if digits = 0 then none else if 5 < digits ∨ 65535 < value then some 65535 else some value
       (c = 0x3B → answer = runCommand s j next esc cmd (done ++ [arg])) ∧
       (c = 0x2C → answer = read (.args esc cmd (done ++ [arg]) 0 0)) ∧
       (0x30 ≤ c.toNat → c.toNat ≤ 0x39 →
         answer = read (.args esc cmd done (digits + 1) (10 * value + (c.toNat - 0x30)))) ∧
       (c ≠ 0x3B → c ≠ 0x2C → c.toNat < 0x30 ∨ 0x39 < c.toNat → answer = broken esc)) ∧
     (∀ esc set, b.reading = .letters esc set →
       (c = 0x3B → answer = .go
         { next with reading := .text, ctx := { next.ctx with fmt := { b.ctx.fmt with mask := set } } }) ∧
       (c = 0x2C → answer = .go next) ∧
       (∀ k, (c, k) ∈ kinds → answer = read (.letters esc (set.add k))) ∧
       (c ≠ 0x3B → c ≠ 0x2C → (∀ k, (c, k) ∉ kinds) → answer = broken esc)) ∧
     (∀ esc cmd done digits value set,
       b.reading = .letter esc ∨ b.reading = .args esc cmd done digits value ∨ b.reading = .letters esc set →
       endOfText s j b = broken esc) ∧
     ∀ sh, b.shape = some sh → b.takeShape = b)

/-- A line's spaces and offset. A JUSTIFY line with spaces, whose glyphs and minimum spaces fit, is set so that its spaces sum
to the room they have, with offset 0: stretched up to the maximum each, beyond it as a LOOSE line, or shrunk down to the
minimum each. A line of any alignment that is longer than the measure is shrunk so (R110, R111, R112).
The shares: of the excess a stretched space takes its norm and the floor of the excess by its part of the stretch capacity,
and one unit more for each of the first spaces below their maximum until the leftover is spent (R110); a shrunk space gives
up the floor of its part of the lack, and the leftover goes one unit each from the first spaces above their minimum (R112).
A LEFT, RIGHT or CENTER line within the measure keeps its normal spaces, with offset 0, the slack, or half of it; a JUSTIFY
line without spaces, and one glyph wider than the measure, have offset 0 (R113).
Placement: the glyphs of a line in their order, each with its left edge at 12 × indent, the offset, and the widths of all
that stands before it, glyphs and fixed spaces as measured and interword spaces as set (R114); its space mark is set where
an interword space or a fixed space stands between it and the glyph before it, or before it at the line's start (R182); that
an interword space dropped at the line's start leaves no mark is the model's reading (assumption 47). The first-space width
is the first interword space as set over five times the size it was scaled by, or none (R116). A discretionary hyphen has no
width, and is no glyph (R4). -/
def Obligations.JustifiedLineFills : Prop :=
  (∀ (a : Machine.Alignment) (width glyphs : Nat) (sp : List Space),
    sp ≠ [] → (∀ q ∈ sp, q.min ≤ q.norm ∧ q.norm ≤ q.max) → glyphs + sumMin sp ≤ width →
    a = .justify ∨ width < glyphs + sumNorm sp →
    (setLine a width glyphs sp).spaces.sum = width - glyphs ∧ (setLine a width glyphs sp).offset = 0 ∧
    (setLine a width glyphs sp).spaces.length = sp.length ∧
    (glyphs + sumNorm sp ≤ width → width ≤ glyphs + sumMax sp →
      List.Forall₂ (fun w (q : Space) => q.norm ≤ w ∧ w ≤ q.max) (setLine a width glyphs sp).spaces sp) ∧
    (width < glyphs + sumNorm sp →
      List.Forall₂ (fun w (q : Space) => q.min ≤ w ∧ w ≤ q.norm) (setLine a width glyphs sp).spaces sp)) ∧
  (∀ (a : Machine.Alignment) (width glyphs : Nat) (sp : List Space),
    sp ≠ [] → (∀ q ∈ sp, q.min ≤ q.norm ∧ q.norm ≤ q.max) →
    let e := width - glyphs - sumNorm sp
    let lack := glyphs + sumNorm sp - width
    let more (q : Space) : Nat := e * (q.max - q.norm) / (sumMax sp - sumNorm sp)
    let less (q : Space) : Nat := lack * (q.norm - q.min) / (sumNorm sp - sumMin sp)
    let roomUp (q : Space) : Prop := more q < q.max - q.norm
    let roomDown (q : Space) : Prop := less q < q.norm - q.min
    (glyphs + sumNorm sp ≤ width → width ≤ glyphs + sumMax sp →
      (setLine .justify width glyphs sp).spaces = sp.mapIdx fun i q =>
        q.norm + more q +
          (if roomUp q ∧ (sp.take i).countP (fun p => decide (roomUp p)) < e - (sp.map more).sum then 1 else 0)) ∧
    (width < glyphs + sumNorm sp → glyphs + sumMin sp ≤ width →
      (setLine a width glyphs sp).spaces = sp.mapIdx fun i q =>
        q.norm - (less q +
          (if roomDown q ∧ (sp.take i).countP (fun p => decide (roomDown p)) < lack - (sp.map less).sum then 1 else 0)))) ∧
  (∀ (width glyphs : Nat) (sp : List Space),
    let slack := width - glyphs - sumNorm sp
    let norms := sp.map (·.norm)
    (glyphs + sumNorm sp ≤ width →
      setLine .left width glyphs sp = ⟨norms, 0⟩ ∧ setLine .right width glyphs sp = ⟨norms, slack⟩ ∧
      setLine .center width glyphs sp = ⟨norms, slack / 2⟩) ∧
    setLine .justify width glyphs [] = ⟨[], 0⟩ ∧
    (width < glyphs → ∀ a, setLine a width glyphs [] = ⟨[], 0⟩)) ∧
  (∀ (sh : Shape) (t : Setting) (ws : List LineWord) (k : Nat) (g : Glyph),
    let flat : List (Option Piece) :=
      ws.flatMap fun w => (w.before.toList.map fun _ => none) ++ w.items.map fun i => some i.piece
    let isGlyph (x : Option Piece) : Bool := (x.map Piece.isGlyph).getD false
    let isSpace (x : Option Piece) : Bool :=
      match x with
      | none => true
      | some (.fixed _) => true
      | _ => false
    let before := flat.take k
    let placed := placeLine sh t ws
    placed.length = flat.countP isGlyph ∧
    (flat[k]? = some (some (.glyph g)) →
      placed[before.countP isGlyph]? = some
        ⟨g,
          12 * sh.indent + t.offset + (before.map fun x => (x.map Piece.width).getD 0).sum +
            (t.spaces.take (before.countP fun x => x.isNone)).sum,
          (before.reverse.takeWhile fun x => !isGlyph x).any isSpace⟩)) ∧
  (∀ (c : Closed) (a : Machine.Alignment),
    let sp := c.words.filterMap (·.before)
    let glyphs := (c.words.map fun w => (w.items.map fun i => i.piece.width).sum).sum
    let t := setLine a (12 * (c.shape.measure - c.shape.indent)) glyphs sp
    c.place a = .line c (placeLine c.shape t c.words)
      (match t.spaces, sp with
      | w :: _, q :: _ => some (w / (5 * q.size))
      | _, _ => none)) ∧
  (∀ (sp : List Space) (g : Glyph) (width font size : Nat),
    sumMin sp = (sp.map (·.min)).sum ∧ sumNorm sp = (sp.map (·.norm)).sum ∧ sumMax sp = (sp.map (·.max)).sum ∧
    [Piece.glyph g, .fixed width, .mark font size].map Piece.width = [g.width, width, 0] ∧
    [Piece.glyph g, .fixed width, .mark font size].map Piece.isGlyph = [true, false, false])

/-- A LOOSE line with n spaces takes every space to its maximum, and of the rest X of the excess q = X / n more each, and one
more for the first X mod n; its offset is 0 and its spaces sum to the room they have (R111). -/
def Obligations.LooseLineSharesRest : Prop :=
  ∀ (width glyphs : Nat) (sp : List Space),
    sp ≠ [] → (∀ q ∈ sp, q.norm ≤ q.max) → glyphs + sumMax sp < width →
    let x := width - glyphs - sumMax sp
    setLine .justify width glyphs sp =
      ⟨sp.mapIdx fun i s => if i < x % sp.length then s.max + x / sp.length + 1 else s.max + x / sp.length, 0⟩ ∧
    (setLine .justify width glyphs sp).spaces.sum = width - glyphs

/-- A set step is the floor or the ceiling of the left edge over 12 fine units, whichever the rounding mode gives by the
remainder, and the two are equal with remainder 0; every mode keeps the order of left edges (R115). -/
def Obligations.RoundingToSetSteps : Prop :=
  (∀ (m : Rounding) (x : Nat),
    let lo := x / 12
    let hi := (x + 11) / 12
    toStep m x =
      match m with
      | .down => lo
      | .up => hi
      | .nearestUp => if x % 12 < 6 then lo else hi
      | .nearestEven => if x % 12 < 6 then lo else if 6 < x % 12 then hi else if lo % 2 = 0 then lo else hi) ∧
  ∀ (m : Rounding) (x y : Nat), x ≤ y → toStep m x ≤ toStep m y

/-! ## Imaging (09) -/

/-- A CONFIRM ends the move of its kind that is in flight, and the timer stops: a turret's position becomes current, and the
strip is read in STARTING, the element goes on otherwise; a lens's lens becomes current, and the element goes on; the
homing of the lens makes lens 1 current, ends start-up and makes the resume test. With no move of its kind in flight it is
ignored. What follows an event follows (R149, R150, R160). -/
def Obligations.ConfirmEndsMove : Prop :=
  ∀ s : State,
    let after (t : State) := Host.Outcome.next (φ := Fault) (ρ := Refusal) (settle s.store.freeCount t)
    let ended (i : Imaging) : State := { s with imaging := { i with move := none, confirmTimer := none } }
    (∀ p, s.imaging.move = some (.turret p) →
      (s.imaging.st = .starting → exec (.confirm .turret) s = after
        { s with
          imaging := { s.imaging with curPos := some p, move := some .readStrip, retry := 0, limit := s.settings.retryLimit
                                      confirmTimer := some s.settings.confirmTimeout }
          port := s.port ++ [.readStrip] }) ∧
      (s.imaging.st ≠ .starting →
        exec (.confirm .turret) s = after (runElement (ended { s.imaging with curPos := some p })))) ∧
    (∀ l, s.imaging.move = some (.lens l) →
      exec (.confirm .lens) s = after (runElement (ended { s.imaging with curLens := some l }))) ∧
    (s.imaging.move = some .lensHome →
      exec (.confirm .lens) s = after (resumeTest (ended { s.imaging with curLens := some 0, stage := .done }))) ∧
    ((∀ p, s.imaging.move ≠ some (.turret p)) → exec (.confirm .turret) s = .next s) ∧
    ((∀ l, s.imaging.move ≠ some (.lens l)) → s.imaging.move ≠ some .lensHome → exec (.confirm .lens) s = .next s)

/-- The confirm timer that expires sends the command in flight again: with a retry limit of 7 always, the retry count not
raised; below the limit with the count raised by one; at the limit the move has failed, with TURRET-FAULT for a turret move
or a strip reading and LENS-FAULT for a lens move or its homing. Each sending starts the timer with the confirm timeout
(R150, R160). That each takes the retry limit as it then stands, and the count is held against that, is the model's reading
(assumption 14).
What TURRET-FAULT, LENS-FAULT and LAMP-FAIL leave: nothing in flight and the confirm timer stopped; the take spoiled and the
buffer flushed; the current position unknown after TURRET-FAULT, the current lens after LENS-FAULT; the low-reading run 0 and
the fail-cleared flag clear after LAMP-FAIL; then the sequencer STOPPED with the fault, and IMAGING-STOPPED with its code for
all desks (R145, R156). The sequencer STOPPED is STOPPED with the reason and that notice, and nothing else changes (R145). -/
def Obligations.ConfirmExpiryRetries : Prop :=
  (∀ (m : ImgMove) (cmd : MechCommand) (s : State),
    (s.imaging.confirmTimer).isSome = true → s.imaging.move = some m →
    ((∃ p, m = .turret p ∧ cmd = .turret p) ∨ (∃ l, m = .lens l ∧ cmd = .lens l) ∨ (m = .readStrip ∧ cmd = .readStrip) ∨
      (m = .lensHome ∧ cmd = .lensHome)) →
    let again (n : Nat) : State :=
      { s with
        imaging := { s.imaging with retry := n, limit := s.settings.retryLimit
                                    confirmTimer := some s.settings.confirmTimeout }
        port := s.port ++ [cmd] }
    let why : StopReason := if (∃ l, m = .lens l) ∨ m = .lensHome then .lensFault else .turretFault
    (s.imaging.limit = 7 → exec .confirmTimerExpiry s = .next (again s.imaging.retry)) ∧
    (s.imaging.limit ≠ 7 → s.imaging.retry < s.imaging.limit →
      exec .confirmTimerExpiry s = .next (again (s.imaging.retry + 1))) ∧
    (s.imaging.limit ≠ 7 → s.imaging.limit ≤ s.imaging.retry →
      exec .confirmTimerExpiry s = .next (settle s.store.freeCount (mechanismFault why s)))) ∧
  (∀ (why : StopReason) (code : Nat) (s : State),
    (why, code) ∈ [(StopReason.turretFault, 4), (.lensFault, 5), (.lampFail, 8)] →
    let left : Imaging := { s.imaging with move := none, retry := 0, confirmTimer := none }
    let spoiled : State := spoil { s with imaging := left }
    spoiled.imaging = left ∧
    mechanismFault why s =
      { spoiled with
        imaging := { left with
          st := .stopped, stop := why
          curPos := if why = .turretFault then none else s.imaging.curPos
          curLens := if why = .lensFault then none else s.imaging.curLens
          lowRun := if why = .lampFail then 0 else s.imaging.lowRun
          failCleared := if why = .lampFail then false else s.imaging.failCleared }
        links := spoiled.links.map (Link.notice .imagingStopped none code) }) ∧
  (∀ (why : StopReason) (code : Nat) (s : State),
    (why, code) ∈ [(StopReason.noFilm, 1), (.filmOut, 2), (.gate, 3), (.turretFault, 4), (.lensFault, 5), (.cutFault, 6),
      (.stripLost, 7), (.lampFail, 8)] →
    enterStopped why s =
      { s with imaging := { s.imaging with st := .stopped, stop := why }
               links := s.links.map (Link.notice .imagingStopped none code) })

/-- The next command for the element being set: TURRET where the turret is not at its position, then LENS where its lens is
not current, then ESCAPE by its drive and FLASH at its energy; with the flash the flash sequence rises by one, staying at
4,294,967,295, and its position's last-use takes the new value (R92, R149, R151, R152).
After the last element the line is exposed: it joins the take, extending its last segment where it is the next line of that
segment's job and beginning one of its own otherwise; its record is finished and leaves the buffer unless its proof is to
come, each of its positions has one pin less, the job's exposed count rises by one, ESCAPE 0 is sent, and the sequencer is
IDLE (R138, R149, R171). That a line with no elements sends ESCAPE 0 too is the model's reading (assumption 45), and that the
unlocks go in position order the model's choice (assumption 44).
The density is that of the font's descriptor (R152), and the record in hand the one BUSY for imaging (R138). -/
def Obligations.ElementSetInOrder : Prop :=
  (∀ (r : Record) (e : Element) (p : Pos) (s : State),
     imgRecord s = some r → r.elements[s.imaging.elem]? = some e → e.pos = some p →
     let sent (m : ImgMove) (t : State) : State :=
       { t with imaging := { t.imaging with move := some m, retry := 0, limit := s.settings.retryLimit
                                            confirmTimer := some s.settings.confirmTimeout } }
     let i := s.imaging
     let step := (2 * (e.x * (10000 + i.latched.lens[e.lens]).toNat) + 10000) / 20000
     let count := if s.mount.flashSeq < 4294967295 then s.mount.flashSeq + 1 else s.mount.flashSeq
     let base := i.latched.expo[e.lens] * fontDensity s e.font
     let raw :=
       if 0 < i.soak then (2 * base + 128) / 256
       else if i.a64 = 0 then 255
       else (2 * (base * s.settings.aref) + 2 * i.a64) / (4 * i.a64)
     (i.curPos ≠ some p → runElement s = sent (.turret p) { s with port := s.port ++ [.turret p] }) ∧
     (i.curPos = some p → i.curLens ≠ some e.lens →
       runElement s = sent (.lens e.lens) { s with port := s.port ++ [.lens e.lens] }) ∧
     (i.curPos = some p → i.curLens = some e.lens →
       runElement s = sent .flash
         { s with
           port := s.port ++ [.escape step, .flash (max 1 (min 255 raw)) i.latched.base[p]]
           mount := { s.mount with
             flashSeq := count, pos := put s.mount.pos p { s.mount.pos[p] with lastUse := count } } })) ∧
  (∀ (j : JobId) (x : TextLine) (proof : ProofField) (s : State),
     imgRecord s = some ⟨j, some x, .busy, proof⟩ → x.elements.length ≤ s.imaging.elem →
     let t := runElement s
     let q := s.jobs[j]
     let pinned (p : Pos) : Prop := ∃ y ∈ x.elements, y.pos = some p
     t.imaging = { s.imaging with st := .idle } ∧
     (∀ g, s.film.take.getLast? = some g → g.job = j → g.last + 1 = x.line →
       t.film = { s.film with take := s.film.take.dropLast ++ [{ g with last := x.line }] }) ∧
     ((∀ g, s.film.take.getLast? = some g → g.job ≠ j ∨ g.last + 1 ≠ x.line) →
       t.film = { s.film with take := s.film.take ++ [⟨j, x.line, x.line, x.start⟩] }) ∧
     t.buffer = (s.buffer.map fun b => if b.img = .busy then { b with img := .done } else b).filter
       (fun b => decide (b.img = .due ∨ b.proof = .due ∨ b.proof = .busy)) ∧
     (∀ p : Pos, t.mount.pos[p] =
       { s.mount.pos[p] with pins := if pinned p then s.mount.pos[p].pins - 1 else s.mount.pos[p].pins }) ∧
     t.port = s.port ++
       (((List.finRange 6).filter fun p : Pos => decide (pinned p ∧ s.mount.pos[p].pins = 1)).map .positionUnlock) ++
       [.escape 0] ∧
     (q.state ≠ .composed → q.state ≠ .cancelled → q.state ≠ .faulted →
       t.jobs[j] = { q with exposed := if q.exposed < 65535 then q.exposed + 1 else q.exposed })) ∧
  (∀ (s : State) (f : Nat) (r : Record),
     (∀ k lv st tb dn sb hy nm, descAt s f = some (.font k lv st tb dn sb hy nm) → fontDensity s f = dn) ∧
     imgRecord s = (s.buffer.find? fun b => decide (b.img = .busy)) ∧ r.elements = (r.text.map (·.elements)).getD [])

/-- FLASH-DONE with a flash in flight ends it and uses its reading: the lamp average is seeded, or moves toward 64 × r by
the floor of the 2^k-th part, and lies between the old average and 64 × r; an expiry ends the flash as a reading of 0 for
the low-reading run, with the average and seed pending as they stand. With no flash in flight FLASH-DONE is ignored (R153);
that an expiry is ignored then too is the model's reading (assumption 6).
What follows the end of a flash: the soak count falls by 1 until it is 0; a reading below the fail threshold makes the
low-reading run one longer, any other makes it 0; with the soak count at 0 a lamp reading below the weak threshold sets the
weak flag, with one LAMP-WEAK when it was clear, and any other clears it; then the next element is set, or, at the third low
reading in a row, LAMP-FAIL is taken (R153, R154, R155). That the weak test is made after an expiry, and after LAMP-FAIL, is
the model's reading (assumption 16), and that LAMP-FAIL at a line's last flash leaves the line unexposed the model's choice
(assumption 51). -/
def Obligations.FlashesTaken : Prop :=
  (∀ (reading : BitVec 10) (s : State),
    let after (t : State) := Host.Outcome.next (φ := Fault) (ρ := Refusal) (settle s.store.freeCount t)
    let r := reading.toNat
    let i := s.imaging
    let average : Nat :=
      if i.seedPending then 64 * r
      else ((i.a64 : Int) + (64 * (r : Int) - i.a64) / 2 ^ s.settings.avgK).toNat
    (i.move = some .flash → exec (.flashDone reading) s = after (flashEnded r
      { s with imaging := { i with move := none, confirmTimer := none, a64 := average, seedPending := false } })) ∧
    (i.move = some .flash → i.confirmTimer.isSome = true → exec .flashTimeout s = after (flashEnded 0
      { s with imaging := { i with move := none, confirmTimer := none } })) ∧
    (i.move ≠ some .flash → exec (.flashDone reading) s = .next s ∧ exec .flashTimeout s = .next s) ∧
    (i.seedPending = false → min i.a64 (64 * r) ≤ average ∧ average ≤ max i.a64 (64 * r))) ∧
  (∀ (r : Nat) (s : State),
    let i := s.imaging
    let soak := i.soak - 1
    let run := if r < s.settings.failThreshold then i.lowRun + 1 else 0
    let weak : Bool := if soak = 0 then decide (i.a64 / 64 < s.settings.weakThreshold) else i.weak
    let told (links : Vector Link 4) : Vector Link 4 :=
      if weak = true ∧ i.weak = false then links.map (Link.notice .lampWeak none (i.a64 / 64)) else links
    let failed : State := mechanismFault .lampFail { s with imaging := { i with soak := soak } }
    (run < 3 → flashEnded r s = runElement
      { s with imaging := { i with soak := soak, lowRun := run, weak := weak, elem := i.elem + 1 }
               links := told s.links }) ∧
    (3 ≤ run → flashEnded r s =
      { failed with imaging := { failed.imaging with weak := weak }, links := told failed.links }))

/-- LAMP-CHANGED sets the soak count to its setting and seed pending, and clears the low-reading run and the weak flag; in
LAMP-FAIL it sets the fail-cleared flag (R154). CLEAR is taken in STOPPED with a fault reason whose cause is gone: a turret
or lens fault raised in STARTING starts the stage that failed again, any other makes the resume test; it is ignored in any
other state, with a film reason, and in LAMP-FAIL not cleared (R159, R160); that a start-up stage other than DONE says that
the fault was raised in STARTING is the model's reading (assumption 17).
The resume test: with no film loaded the sequencer is STOPPED with NO-FILM, else with the film gate false with GATE, else with
a film-out condition with FILM-OUT, else it is IDLE with no reason (R158); IMAGING-STOPPED is raised for all desks with the
reason's code where it enters STOPPED or its reason changes, and nothing changes where neither does (R145). -/
def Obligations.LampChangedAndClear : Prop :=
  (∀ (s : State),
    let after (t : State) := Host.Outcome.next (φ := Fault) (ρ := Refusal) (settle s.store.freeCount t)
    let i := s.imaging
    let again (stage : Stage) (m : ImgMove) (cmd : MechCommand) : State :=
      { s with
        imaging := { i with st := .starting, stop := .none, stage := stage, move := some m, retry := 0
                            limit := s.settings.retryLimit, confirmTimer := some s.settings.confirmTimeout }
        port := s.port ++ [cmd] }
    let film : Prop := i.stop = .noFilm ∨ i.stop = .filmOut ∨ i.stop = .gate
    exec .lampChanged s = .next
      { s with imaging := { i with
          soak := s.settings.soak, seedPending := true, lowRun := 0, weak := false
          failCleared := i.failCleared || decide (i.st = .stopped ∧ i.stop = .lampFail) } } ∧
    (i.st ≠ .stopped ∨ film ∨ (i.stop = .lampFail ∧ i.failCleared = false) → exec .clear s = .next s) ∧
    (i.st = .stopped → i.stop = .turretFault → i.stage ≠ .done →
      exec .clear s = after (again .scan (.turret 0) (.turret 0))) ∧
    (i.st = .stopped → i.stop = .lensFault → i.stage ≠ .done → exec .clear s = after (again i.stage .lensHome .lensHome)) ∧
    (i.st = .stopped → ¬ film → (i.stop = .lampFail → i.failCleared = true) →
      ((i.stop = .turretFault ∨ i.stop = .lensFault) → i.stage = .done) →
      exec .clear s = after (resumeTest { s with imaging := { i with stop := .none, move := none } }))) ∧
  (∀ (s : State),
    let i := s.imaging
    let f := s.film
    let stops (why : StopReason) (code : Nat) : Prop :=
      resumeTest s =
        if i.st = .stopped ∧ i.stop = why then s
        else
          { s with imaging := { i with st := .stopped, stop := why }
                   links := s.links.map (Link.notice .imagingStopped none code) }
    let gate : Prop := f.loaded = true ∧ f.takeUp = true ∧ f.doorClosed = true
    (f.loaded = false → stops .noFilm 1) ∧
    (f.loaded = true → ¬ gate → stops .gate 3) ∧
    (gate → f.filmOut = true → stops .filmOut 2) ∧
    (gate → f.filmOut = false → resumeTest s = { s with imaging := { i with st := .idle, stop := .none } }))

/-! ## Film and takes (10) -/

/-- The line's move: the trims are latched; a full take that the line does not extend is cut first (SEGMENTS), and so is one
that the line's target would make longer than the max take (LENGTH); a line that would leave less than the cut reserve is
FILM-OUT, after a cut of what the take holds; else the film advances, stands still, or is reversed, no further than the
reverse floor, with REVERSE-CLAMPED set where that cuts it short (R147, R148, R167, R168, R169, R170). With P below the floor
no command is sent (the model's reading, assumption 46). Each ADVANCE makes the low test (R169).
MOVE-DONE ends the film move in flight: a cut advancing goes on to the blade, with the cut timer at 2 s, and a line's move to
its first element. CUT-DONE at the blade ends the cut: CUTPOS becomes P, the take is delivered and the cut reported: the
sequencer is IDLE again, or the line whose move it was goes on, or stops with FILM-OUT (R173).
The cut timer that expires fails it: the take is spoiled, a film-out cut sets its condition all the same, and CUT-FAULT is
taken, in that order (the model's reading, assumption 18). A MOVE-DONE or CUT-DONE with none in flight is ignored (R163,
R168, R173); that any one taken with one in flight ends it, a late one of a move or a cut that was ended too, is the
model's choice (assumption 49).
Delivery empties the take, adds each segment's lines to its job's delivered count, drops the decisions of the lines
delivered, and frees a job that this completes, or that is CANCELLED or FAULTED with no record left (R71, R75, R174).
Work abandoned leaves no sequencer command in flight, no retry counted and the confirm timer stopped (R156); the film-out
condition, once set, raises FILM-OUT for all desks and clears a pending cut (R168). -/
def Obligations.FilmMovesAndCuts : Prop :=
  (∀ s : State,
     let after (t : State) := Host.Outcome.next (φ := Fault) (ρ := Refusal) (settle s.store.freeCount t)
     let f := s.film
     (f.move = none → exec .moveDone s = .next s) ∧
     (∀ m why, f.move = some m → f.cut = some (.advancingToCut, why) →
       exec .moveDone s = after
         { s with film := { f with move := none, cut := some (.blade, why), cutTimer := some 2000 }
                  port := s.port ++ [.blade] }) ∧
     (∀ m, f.move = some m → f.cut = none → s.imaging.st = .advancing →
       exec .moveDone s = after (runElement
         { s with film := { f with move := none }, imaging := { s.imaging with st := .setting, elem := 0 } })) ∧
     ((∀ why, f.cut ≠ some (.blade, why)) → exec .cutDone s = .next s) ∧
     (∀ why, f.cut = some (.blade, why) →
       exec .cutDone s = after (cutReported why (deliver
         { s with film := { f with cut := none, cutTimer := none, cutpos := f.p } }))) ∧
     (∀ why, f.cut = some (.blade, why) → f.cutTimer.isSome = true →
       exec .cutTimerExpiry s = after (enterStopped .cutFault (abandonWork
         (if why = .filmOut then noteFilmOut (spoil s) else spoil s))))) ∧
  (∀ (j : JobId) (x : TextLine) (img : ImgField) (proof : ProofField) (s : State),
     let f := s.film
     let l := x.move
     let floor : Nat := max f.cutpos (f.hw - s.settings.reverseLimit)
     let target : Int := if 0 ≤ l then f.p + l else max (f.p + l) floor
     let far : Int := max f.hw target
     let begun : State := { s with imaging := { s.imaging with latched := s.imaging.written, st := .advancing } }
     let advanced (n : Nat) (t : State) : State :=
       let u : State :=
         { t with film := { t.film with p := f.p + n, hw := max f.hw (f.p + n), move := some (.advance n) }
                  port := s.port ++ [.advance n] }
       let left := if f.loaded then f.length - max f.hw (f.p + n) else 0
       if left < s.settings.lowThreshold * 8640 ∧ f.lowSent = false then
         { u with film := { u.film with lowSent := true } }.noticeAll .filmLow (left / 8640)
       else u
     let reversed (n : Nat) (t : State) : State :=
       { t with film := { f with p := f.p - n, move := some (.reverse n) }, port := s.port ++ [.reverse n] }
     let cut (why : CutPurpose) : State :=
       advanced (min (f.hw + s.settings.cutMargin) f.length - f.p)
         { begun with film := { f with cut := some (.advancingToCut, why) }
                      imaging := { begun.imaging with st := .cutting } }
     let setting (t : State) : State := runElement { t with imaging := { begun.imaging with st := .setting, elem := 0 } }
     let clamped : State := { begun with jobs := put s.jobs j { s.jobs[j] with reverseClamped := true } }
     let full : Prop := f.take.length = 16 ∧ ∀ g, f.take.getLast? = some g → g.job ≠ j ∨ g.last + 1 ≠ x.line
     let long : Prop := f.take ≠ [] ∧ (s.settings.maxTake : Int) < far - f.cutpos
     let spent : Prop := (f.length : Int) - far < s.settings.cutReserve
     let begin := beginRecord ⟨j, some x, img, proof⟩ s
     (full → begin = cut .segments) ∧ (¬ full → long → begin = cut .length) ∧
     (¬ full → ¬ long → spent → f.take ≠ [] → begin = cut .filmOut) ∧
     (¬ full → ¬ long → spent → f.take = [] → begin = cutReported .filmOut begun) ∧
     (¬ full → ¬ long → ¬ spent →
       (0 < l → begin = advanced l.toNat begun) ∧ (l = 0 → begin = setting begun) ∧
       (l < 0 → (floor : Int) ≤ f.p + l → begin = reversed (-l).toNat begun) ∧
       (l < 0 → f.p + l < (floor : Int) → floor < f.p → begin = reversed (f.p - floor) clamped) ∧
       (l < 0 → f.p + l < (floor : Int) → f.p ≤ floor → begin = setting clamped)) ∧
     (f.take = [] → imgRecord s = some ⟨j, some x, img, proof⟩ → s.imaging.latched = s.imaging.written →
       cutReported .segments s = begin ∧ cutReported .length s = begin)) ∧
  (∀ s : State,
     let i := s.imaging
     let out : State :=
       { s with film := { s.film with filmOut := true, pendingCut := false }
                imaging := { i with move := none, retry := 0, confirmTimer := none, st := .stopped, stop := .filmOut }
                buffer := s.buffer.map fun b => if b.img = .busy then { b with img := .due } else b }
     cutReported .pending s = { s with imaging := { i with st := .idle } } ∧
     (cutReported .record s).imaging = { i with st := .idle } ∧ (∀ b ∈ (cutReported .record s).buffer, b.img ≠ .busy) ∧
     cutReported .filmOut s = (out.noticeAll .filmOut 0).noticeAll .imagingStopped 2) ∧
  (∀ s : State,
     let t := deliver s
     let lines (j : JobId) : Nat := ((s.film.take.filter fun g => decide (g.job = j)).map fun g => g.last - g.first + 1).sum
     let count (j : JobId) : Nat := min 65535 (s.jobs[j].delivered + lines j)
     let counted (j : JobId) : Prop := ∃ g ∈ s.film.take, g.job = j
     let gone (j : JobId) : Prop := ∀ b ∈ s.buffer, b.job ≠ j
     let imaging (j : JobId) : Prop := s.jobs[j].imagingDue = true
     t.film = { s.film with take := [], pendingCut := false } ∧ t.buffer = s.buffer ∧
     (∀ j, ¬ counted j → t.jobs[j] = s.jobs[j]) ∧
     (∀ j, counted j →
       (s.jobs[j].state = .cancelled ∨ s.jobs[j].state = .faulted ∨
         (s.jobs[j].state = .composed ∧ imaging j ∧ count j = s.jobs[j].composed) → gone j → t.jobs[j] = Job.free) ∧
       (¬ gone j ∨ (s.jobs[j].state ≠ .composed ∧ s.jobs[j].state ≠ .cancelled ∧ s.jobs[j].state ≠ .faulted) ∨
         (s.jobs[j].state = .composed ∧ imaging j ∧ count j ≠ s.jobs[j].composed) →
         t.jobs[j] =
           { s.jobs[j] with
             delivered := count j
             decisions := s.jobs[j].decisions.filter fun d => decide (count j < d.line) }))) ∧
  (∀ s : State,
     abandonWork s = { s with imaging := { s.imaging with move := none, retry := 0, confirmTimer := none } } ∧
     noteFilmOut s =
       { s with film := { s.film with filmOut := true, pendingCut := false }
                links := s.links.map (Link.notice .filmOut none 0) })

/-- MAGAZINE-LOADED with no film loaded declares a roll of 10 to 200 feet, its positions 0 and its conditions cleared, and
makes the resume test where the sequencer is STOPPED with a film reason; with film loaded it is MAGAZINE-OUT first.
MAGAZINE-OUT unloads the film, spoils a take that the falling gate catches, and reports NO-FILM; with none loaded it changes
nothing (R157, R165, R166).
TAKE-UP-IN, TAKE-UP-OUT, DOOR-CLOSED and DOOR-OPEN: one that reports a switch already so changes nothing; one that makes
the film gate false spoils a take that holds a segment and reports GATE; one that makes it true makes the resume test where
the sequencer is STOPPED with a film reason (R157, R158, R165).
NO-FILM or GATE reported stops an IDLE sequencer with it; one at work abandons the work, gives its record back, and stops; one
STOPPED with a film reason makes the resume test; one with a fault reason, or in STARTING, goes on as it is (R157).
A spoil empties the take without delivery, and ends any film move, cut and pending cut; no record stays due for imaging, and
its pins are released. A job that loses a line, of the take or of a record due for imaging, goes back to its earliest one: it
becomes QUEUED in the rerun list, or is selected at once, with the line's start context, its composed count the line less 1,
its exposed count the delivered count, a held record, a waited font and a reason dropped, and SPOILED is raised for its desk;
no record of it from that line on stays but for one that is printing. A CANCELLED one is freed once it has no record. Of the
jobs untouched a COMPOSING one becomes QUEUED, or is selected again, and a QUEUED one may be selected; no other changes
(R76, R143, R144, R175). That a gate which falls in a film-out cut sets no film-out condition is the model's reading
(assumption 18). -/
def Obligations.FilmAndGateEventsTaken : Prop :=
  (∀ (feet : BitVec 16) (s : State),
     let after (t : State) := Host.Outcome.next (φ := Fault) (ρ := Refusal) (settle s.store.freeCount t)
     let load (t : State) : State :=
       let u : State :=
         { t with film := { t.film with
             loaded := true, length := max 10 (min 200 feet.toNat) * 8640, p := 0, hw := 0, cutpos := 0, filmOut := false
             lowSent := false, pendingCut := false } }
       if u.imaging.st = .stopped ∧ (u.imaging.stop = .noFilm ∨ u.imaging.stop = .filmOut ∨ u.imaging.stop = .gate)
       then resumeTest u else u
     let bare : State := { s with film := { s.film with loaded := false, length := 0, p := 0, hw := 0, cutpos := 0 } }
     let out : State :=
       filmLost .noFilm
         (if s.film.takeUp = true ∧ s.film.doorClosed = true ∧ s.film.take ≠ [] then spoil bare else bare)
     (s.film.loaded = false → exec (.magazineLoaded feet) s = after (load s) ∧ exec .magazineOut s = .next s) ∧
     (s.film.loaded = true → exec (.magazineLoaded feet) s = after (load out) ∧ exec .magazineOut s = after out)) ∧
  (∀ (s : State),
     let after (t : State) := Host.Outcome.next (φ := Fault) (ρ := Refusal) (settle s.store.freeCount t)
     let set (up door : Bool) : State := { s with film := { s.film with takeUp := up, doorClosed := door } }
     let falls (t : State) : State := filmLost .gate (if s.film.take = [] then t else spoil t)
     let rises (t : State) : State :=
       if t.imaging.st = .stopped ∧ (t.imaging.stop = .noFilm ∨ t.imaging.stop = .filmOut ∨ t.imaging.stop = .gate)
       then resumeTest t else t
     let up := s.film.takeUp
     let door := s.film.doorClosed
     let loaded := s.film.loaded
     (up = true → exec .takeUpIn s = .next s) ∧ (up = false → exec .takeUpOut s = .next s) ∧
     (door = true → exec .doorClosed s = .next s) ∧ (door = false → exec .doorOpen s = .next s) ∧
     (up = false → exec .takeUpIn s = after (if loaded ∧ door then rises (set true door) else set true door)) ∧
     (door = false → exec .doorClosed s = after (if loaded ∧ up then rises (set up true) else set up true)) ∧
     (up = true → exec .takeUpOut s = after (if loaded ∧ door then falls (set false door) else set false door)) ∧
     (door = true → exec .doorOpen s = after (if loaded ∧ up then falls (set up false) else set up false))) ∧
  (∀ (why : StopReason) (code : Nat) (s : State), (why, code) ∈ [(StopReason.noFilm, 1), (.gate, 3)] →
     let i := s.imaging
     let stopped (t : State) : State :=
       { t with imaging := { t.imaging with st := .stopped, stop := why }
                links := s.links.map (Link.notice .imagingStopped none code) }
     let film : Prop := i.stop = .noFilm ∨ i.stop = .filmOut ∨ i.stop = .gate
     (i.st = .idle → filmLost why s = stopped s) ∧
     (i.st = .advancing ∨ i.st = .setting ∨ i.st = .cutting → filmLost why s = stopped
       { s with imaging := { i with move := none, retry := 0, confirmTimer := none }
                film := { s.film with move := none, cut := none, cutTimer := none }
                buffer := s.buffer.map fun b => if b.img = .busy then { b with img := .due } else b }) ∧
     (i.st = .stopped → film → filmLost why s = resumeTest s) ∧
     (i.st = .stopped → ¬ film → filmLost why s = s) ∧ (i.st = .starting → filmLost why s = s)) ∧
  (∀ (s : State),
     let t := spoil s
     let live (r : Record) : Bool := decide (r.img = .due ∨ r.img = .busy)
     let lost : List (JobId × Nat × Context) :=
       s.film.take.map (fun g => (g.job, g.first, g.restart)) ++
       (s.buffer.filter live).filterMap fun r => r.text.map fun x => (r.job, x.line, x.start)
     let earliest (j : JobId) : Option (Nat × Context) := (lost.find? fun e => decide (e.1 = j)).map (·.2)
     t.film = { s.film with take := [], pendingCut := false, move := none, cut := none, cutTimer := none } ∧
     (∀ b ∈ t.buffer, b.img ≠ .due ∧ b.img ≠ .busy) ∧
     (∀ p : Pos, t.mount.pos[p] =
       { s.mount.pos[p] with
         pins := s.mount.pos[p].pins - (s.buffer.filter live).countP fun r => r.elements.any fun e => e.pos = some p }) ∧
     (∀ j line ctx, earliest j = some (line, ctx) →
       (∀ b ∈ t.buffer, b.job = j → ∀ x, b.text = some x → line ≤ x.line → b.proof = .busy) ∧
       (s.jobs[j].state = .cancelled →
         ((∀ b ∈ t.buffer, b.job ≠ j) → t.jobs[j] = Job.free) ∧
         ((∃ b ∈ t.buffer, b.job = j) → t.jobs[j] = s.jobs[j])) ∧
       (s.jobs[j].state ≠ .cancelled → s.jobs[j].state ≠ .free →
         t.jobs[j] =
           { s.jobs[j] with
             state := t.jobs[j].state, saved := some ctx, composed := line - 1, exposed := s.jobs[j].delivered
             held := none, heldTimer := none, waitedFont := none, reason := .none } ∧
         ((t.jobs[j].state = .queued ∧ j ∈ t.queue.rerun) ∨ (t.jobs[j].state = .composing ∧ j ∉ t.queue.rerun)) ∧
         t.links[s.jobs[j].owner].flags.getLsbD 6 = true)) ∧
     (∀ j : JobId, earliest j = none → (∀ b ∈ s.buffer, b.job = j → live b = false) →
       (s.jobs[j].state ≠ .composing → s.jobs[j].state ≠ .queued → t.jobs[j] = s.jobs[j]) ∧
       (s.jobs[j].state = .composing ∨ s.jobs[j].state = .queued →
         (t.jobs[j].state = .queued ∨ t.jobs[j].state = .composing) ∧
         (s.jobs[j].saved.isSome = true → t.jobs[j] = { s.jobs[j] with state := t.jobs[j].state }))))

/-! ## Invariants -/

/-- The thresholds stand in the order FULL-RESERVE ≤ LOW < HIGH ≤ 2,048 and the cut reserve at or above the cut margin
(R47, R164); no two font descriptors hold one strip code (R78); no font is MOUNTED at more than one position (R85); and
CUTPOS ≤ P ≤ HW ≤ the load length (R163): every step keeps each of them. -/
def Obligations.SettingsAndStripsKept : Prop :=
  ∀ s t : State, step s = .next t →
    (SettingsOrdered s → SettingsOrdered t) ∧ (StripsDistinct s → StripsDistinct t) ∧
    (MountedOnce s → MountedOnce t) ∧ (FilmSound s → FilmSound t)

/-- The dictionary holds at most 1,024 entries, no two with one word, each in the bucket its hash gives (R128), by the
hash that DictAddTaken states: every step keeps it so. -/
def Obligations.DictionarySoundKept : Prop :=
  ∀ s t : State, DictionarySound s → step s = .next t → DictionarySound t

/-- Every step keeps the mount table, the line buffer, the sequencer and the take in agreement: no font MOUNTED twice (R85);
each pin count the number of imaging-due, not-done records with an element on the position, each element where its font is
MOUNTED (R91, R137); at most 64 records, fewer while the engine is RUNNING, and one in hand for each consumer (R97, R134,
R138, R139); no record in hand in IDLE, STOPPED and STARTING, a cut in flight only in CUTTING, a mechanism move only in the
states that send it (R145, R146, R148, R149, R160); at most 16 segments in the take, with room for the line being set (R167,
R171). And every step keeps the galley store's bytes in canonical form: the manual names the bytes alone, and the form is the
model's own way of holding them (assumptions 4 and 34). -/
def Obligations.BytesCanonicalKept : Prop :=
  ∀ s t : State, step s = .next t →
    (BytesCanonical s → BytesCanonical t) ∧ (MachineSound s → MachineSound t)

/-- Every block is on the free list or in one chain, once, 2,048 in all; the chains are those the records name, a FREE
record has none (R40, R41, R46); and the next-links are in canonical form, the model's own way of holding them (assumption
34): every step keeps it so. -/
def Obligations.GalleySoundKept : Prop :=
  ∀ s t : State, GalleySound s → step s = .next t → GalleySound t

/-- The invariants hold right after reset. The reset state stands on a blank serial memory, whose regions fail their sums and
so give every default, and reads the store's bytes as 0: the model's choices (assumptions 2, 4 and 34). -/
def Obligations.InvariantsAtReset : Prop :=
  SettingsOrdered State.reset ∧ StripsDistinct State.reset ∧ DictionarySound State.reset ∧ BytesCanonical State.reset ∧
  GalleySound State.reset ∧ MountedOnce State.reset ∧ FilmSound State.reset ∧ MachineSound State.reset

/-- Only TEXT stores a byte of text: no other desk request does, sent to a link in HUNT or taken as the kept request; nor do
the bytes of a bad frame that hold no type 0x11; and an event, RESET apart, stores none, and leaves the directory, the
dictionary and the settings as they stand. -/
def Obligations.OnlyTextStoresBytes : Prop :=
  ∀ (c : Instr) (s t : State), exec c s = .next t →
    (isEvent c = true → t.store.cells = s.store.cells ∧ t.dir = s.dir ∧ t.dict = s.dict ∧ t.settings = s.settings) ∧
    (∀ d f, frameOf c = some (d, f) → c.wellFormed = true → Listening d s → f.type ≠ 0x11 →
      t.store.cells = s.store.cells) ∧
    (∀ d, c = .keptRequestTaken d → (∀ f, s.links[d].kept = some f → f.type ≠ 0x11) → t.store.cells = s.store.cells) ∧
    (∀ d bytes, c = .badFrame d bytes → Listening d s → 0x11 ∉ bytes → t.store.cells = s.store.cells)
end

