-- ==== Sys2Proof/Laws/State.lean ====
section
/-! SUPPORT. What each update of the state reads as, field by field. -/

namespace Sys2Proof.Machine

@[simp] theorem State.modLink_store (d : Desk) (f : Link → Link) (s : State) : (s.modLink d f).store = s.store := rfl
@[simp] theorem State.modLink_jobs (d : Desk) (f : Link → Link) (s : State) : (s.modLink d f).jobs = s.jobs := rfl
@[simp] theorem State.modLink_queue (d : Desk) (f : Link → Link) (s : State) : (s.modLink d f).queue = s.queue := rfl
@[simp] theorem State.modLink_dir (d : Desk) (f : Link → Link) (s : State) : (s.modLink d f).dir = s.dir := rfl
@[simp] theorem State.modLink_mount (d : Desk) (f : Link → Link) (s : State) : (s.modLink d f).mount = s.mount := rfl
@[simp] theorem State.modLink_engine (d : Desk) (f : Link → Link) (s : State) : (s.modLink d f).engine = s.engine := rfl
@[simp] theorem State.modLink_dict (d : Desk) (f : Link → Link) (s : State) : (s.modLink d f).dict = s.dict := rfl
@[simp] theorem State.modLink_buffer (d : Desk) (f : Link → Link) (s : State) : (s.modLink d f).buffer = s.buffer := rfl
@[simp] theorem State.modLink_imaging (d : Desk) (f : Link → Link) (s : State) : (s.modLink d f).imaging = s.imaging := rfl
@[simp] theorem State.modLink_film (d : Desk) (f : Link → Link) (s : State) : (s.modLink d f).film = s.film := rfl
@[simp] theorem State.modLink_proof (d : Desk) (f : Link → Link) (s : State) : (s.modLink d f).proof = s.proof := rfl
@[simp] theorem State.modLink_settings (d : Desk) (f : Link → Link) (s : State) : (s.modLink d f).settings = s.settings := rfl
@[simp] theorem State.modLink_serial (d : Desk) (f : Link → Link) (s : State) : (s.modLink d f).serial = s.serial := rfl
@[simp] theorem State.modLink_port (d : Desk) (f : Link → Link) (s : State) : (s.modLink d f).port = s.port := rfl
@[simp] theorem State.modLink_pending (d : Desk) (f : Link → Link) (s : State) : (s.modLink d f).pending = s.pending := rfl

@[simp] theorem State.modLinks_store (f : Link → Link) (s : State) : (s.modLinks f).store = s.store := rfl
@[simp] theorem State.modLinks_jobs (f : Link → Link) (s : State) : (s.modLinks f).jobs = s.jobs := rfl
@[simp] theorem State.modLinks_queue (f : Link → Link) (s : State) : (s.modLinks f).queue = s.queue := rfl
@[simp] theorem State.modLinks_dir (f : Link → Link) (s : State) : (s.modLinks f).dir = s.dir := rfl
@[simp] theorem State.modLinks_mount (f : Link → Link) (s : State) : (s.modLinks f).mount = s.mount := rfl
@[simp] theorem State.modLinks_engine (f : Link → Link) (s : State) : (s.modLinks f).engine = s.engine := rfl
@[simp] theorem State.modLinks_dict (f : Link → Link) (s : State) : (s.modLinks f).dict = s.dict := rfl
@[simp] theorem State.modLinks_buffer (f : Link → Link) (s : State) : (s.modLinks f).buffer = s.buffer := rfl
@[simp] theorem State.modLinks_imaging (f : Link → Link) (s : State) : (s.modLinks f).imaging = s.imaging := rfl
@[simp] theorem State.modLinks_film (f : Link → Link) (s : State) : (s.modLinks f).film = s.film := rfl
@[simp] theorem State.modLinks_proof (f : Link → Link) (s : State) : (s.modLinks f).proof = s.proof := rfl
@[simp] theorem State.modLinks_settings (f : Link → Link) (s : State) : (s.modLinks f).settings = s.settings := rfl
@[simp] theorem State.modLinks_serial (f : Link → Link) (s : State) : (s.modLinks f).serial = s.serial := rfl
@[simp] theorem State.modLinks_port (f : Link → Link) (s : State) : (s.modLinks f).port = s.port := rfl
@[simp] theorem State.modLinks_pending (f : Link → Link) (s : State) : (s.modLinks f).pending = s.pending := rfl

@[simp] theorem State.modJob_links (j : JobId) (f : Job → Job) (s : State) : (s.modJob j f).links = s.links := rfl
@[simp] theorem State.modJob_store (j : JobId) (f : Job → Job) (s : State) : (s.modJob j f).store = s.store := rfl
@[simp] theorem State.modJob_queue (j : JobId) (f : Job → Job) (s : State) : (s.modJob j f).queue = s.queue := rfl
@[simp] theorem State.modJob_dir (j : JobId) (f : Job → Job) (s : State) : (s.modJob j f).dir = s.dir := rfl
@[simp] theorem State.modJob_mount (j : JobId) (f : Job → Job) (s : State) : (s.modJob j f).mount = s.mount := rfl
@[simp] theorem State.modJob_engine (j : JobId) (f : Job → Job) (s : State) : (s.modJob j f).engine = s.engine := rfl
@[simp] theorem State.modJob_dict (j : JobId) (f : Job → Job) (s : State) : (s.modJob j f).dict = s.dict := rfl
@[simp] theorem State.modJob_buffer (j : JobId) (f : Job → Job) (s : State) : (s.modJob j f).buffer = s.buffer := rfl
@[simp] theorem State.modJob_imaging (j : JobId) (f : Job → Job) (s : State) : (s.modJob j f).imaging = s.imaging := rfl
@[simp] theorem State.modJob_film (j : JobId) (f : Job → Job) (s : State) : (s.modJob j f).film = s.film := rfl
@[simp] theorem State.modJob_proof (j : JobId) (f : Job → Job) (s : State) : (s.modJob j f).proof = s.proof := rfl
@[simp] theorem State.modJob_settings (j : JobId) (f : Job → Job) (s : State) : (s.modJob j f).settings = s.settings := rfl
@[simp] theorem State.modJob_serial (j : JobId) (f : Job → Job) (s : State) : (s.modJob j f).serial = s.serial := rfl
@[simp] theorem State.modJob_port (j : JobId) (f : Job → Job) (s : State) : (s.modJob j f).port = s.port := rfl
@[simp] theorem State.modJob_pending (j : JobId) (f : Job → Job) (s : State) : (s.modJob j f).pending = s.pending := rfl

@[simp] theorem State.send_links (c : MechCommand) (s : State) : (s.send c).links = s.links := rfl
@[simp] theorem State.send_store (c : MechCommand) (s : State) : (s.send c).store = s.store := rfl
@[simp] theorem State.send_jobs (c : MechCommand) (s : State) : (s.send c).jobs = s.jobs := rfl
@[simp] theorem State.send_queue (c : MechCommand) (s : State) : (s.send c).queue = s.queue := rfl
@[simp] theorem State.send_dir (c : MechCommand) (s : State) : (s.send c).dir = s.dir := rfl
@[simp] theorem State.send_mount (c : MechCommand) (s : State) : (s.send c).mount = s.mount := rfl
@[simp] theorem State.send_engine (c : MechCommand) (s : State) : (s.send c).engine = s.engine := rfl
@[simp] theorem State.send_dict (c : MechCommand) (s : State) : (s.send c).dict = s.dict := rfl
@[simp] theorem State.send_buffer (c : MechCommand) (s : State) : (s.send c).buffer = s.buffer := rfl
@[simp] theorem State.send_imaging (c : MechCommand) (s : State) : (s.send c).imaging = s.imaging := rfl
@[simp] theorem State.send_film (c : MechCommand) (s : State) : (s.send c).film = s.film := rfl
@[simp] theorem State.send_proof (c : MechCommand) (s : State) : (s.send c).proof = s.proof := rfl
@[simp] theorem State.send_settings (c : MechCommand) (s : State) : (s.send c).settings = s.settings := rfl
@[simp] theorem State.send_serial (c : MechCommand) (s : State) : (s.send c).serial = s.serial := rfl
@[simp] theorem State.send_pending (c : MechCommand) (s : State) : (s.send c).pending = s.pending := rfl

@[simp] theorem State.modPos_links (p : Pos) (f : Position → Position) (s : State) : (s.modPos p f).links = s.links := rfl
@[simp] theorem State.modPos_store (p : Pos) (f : Position → Position) (s : State) : (s.modPos p f).store = s.store := rfl
@[simp] theorem State.modPos_jobs (p : Pos) (f : Position → Position) (s : State) : (s.modPos p f).jobs = s.jobs := rfl
@[simp] theorem State.modPos_queue (p : Pos) (f : Position → Position) (s : State) : (s.modPos p f).queue = s.queue := rfl
@[simp] theorem State.modPos_dir (p : Pos) (f : Position → Position) (s : State) : (s.modPos p f).dir = s.dir := rfl
@[simp] theorem State.modPos_engine (p : Pos) (f : Position → Position) (s : State) : (s.modPos p f).engine = s.engine := rfl
@[simp] theorem State.modPos_dict (p : Pos) (f : Position → Position) (s : State) : (s.modPos p f).dict = s.dict := rfl
@[simp] theorem State.modPos_buffer (p : Pos) (f : Position → Position) (s : State) : (s.modPos p f).buffer = s.buffer := rfl
@[simp] theorem State.modPos_imaging (p : Pos) (f : Position → Position) (s : State) : (s.modPos p f).imaging = s.imaging := rfl
@[simp] theorem State.modPos_film (p : Pos) (f : Position → Position) (s : State) : (s.modPos p f).film = s.film := rfl
@[simp] theorem State.modPos_proof (p : Pos) (f : Position → Position) (s : State) : (s.modPos p f).proof = s.proof := rfl
@[simp] theorem State.modPos_settings (p : Pos) (f : Position → Position) (s : State) : (s.modPos p f).settings = s.settings := rfl
@[simp] theorem State.modPos_serial (p : Pos) (f : Position → Position) (s : State) : (s.modPos p f).serial = s.serial := rfl
@[simp] theorem State.modPos_port (p : Pos) (f : Position → Position) (s : State) : (s.modPos p f).port = s.port := rfl
@[simp] theorem State.modPos_pending (p : Pos) (f : Position → Position) (s : State) : (s.modPos p f).pending = s.pending := rfl

@[simp] theorem State.modFilm_links (f : Film → Film) (s : State) : (s.modFilm f).links = s.links := rfl
@[simp] theorem State.modFilm_store (f : Film → Film) (s : State) : (s.modFilm f).store = s.store := rfl
@[simp] theorem State.modFilm_jobs (f : Film → Film) (s : State) : (s.modFilm f).jobs = s.jobs := rfl
@[simp] theorem State.modFilm_queue (f : Film → Film) (s : State) : (s.modFilm f).queue = s.queue := rfl
@[simp] theorem State.modFilm_dir (f : Film → Film) (s : State) : (s.modFilm f).dir = s.dir := rfl
@[simp] theorem State.modFilm_mount (f : Film → Film) (s : State) : (s.modFilm f).mount = s.mount := rfl
@[simp] theorem State.modFilm_engine (f : Film → Film) (s : State) : (s.modFilm f).engine = s.engine := rfl
@[simp] theorem State.modFilm_dict (f : Film → Film) (s : State) : (s.modFilm f).dict = s.dict := rfl
@[simp] theorem State.modFilm_buffer (f : Film → Film) (s : State) : (s.modFilm f).buffer = s.buffer := rfl
@[simp] theorem State.modFilm_imaging (f : Film → Film) (s : State) : (s.modFilm f).imaging = s.imaging := rfl
@[simp] theorem State.modFilm_proof (f : Film → Film) (s : State) : (s.modFilm f).proof = s.proof := rfl
@[simp] theorem State.modFilm_settings (f : Film → Film) (s : State) : (s.modFilm f).settings = s.settings := rfl
@[simp] theorem State.modFilm_serial (f : Film → Film) (s : State) : (s.modFilm f).serial = s.serial := rfl
@[simp] theorem State.modFilm_port (f : Film → Film) (s : State) : (s.modFilm f).port = s.port := rfl
@[simp] theorem State.modFilm_pending (f : Film → Film) (s : State) : (s.modFilm f).pending = s.pending := rfl

@[simp] theorem State.modImg_links (f : Imaging → Imaging) (s : State) : (s.modImg f).links = s.links := rfl
@[simp] theorem State.modImg_store (f : Imaging → Imaging) (s : State) : (s.modImg f).store = s.store := rfl
@[simp] theorem State.modImg_jobs (f : Imaging → Imaging) (s : State) : (s.modImg f).jobs = s.jobs := rfl
@[simp] theorem State.modImg_queue (f : Imaging → Imaging) (s : State) : (s.modImg f).queue = s.queue := rfl
@[simp] theorem State.modImg_dir (f : Imaging → Imaging) (s : State) : (s.modImg f).dir = s.dir := rfl
@[simp] theorem State.modImg_mount (f : Imaging → Imaging) (s : State) : (s.modImg f).mount = s.mount := rfl
@[simp] theorem State.modImg_engine (f : Imaging → Imaging) (s : State) : (s.modImg f).engine = s.engine := rfl
@[simp] theorem State.modImg_dict (f : Imaging → Imaging) (s : State) : (s.modImg f).dict = s.dict := rfl
@[simp] theorem State.modImg_buffer (f : Imaging → Imaging) (s : State) : (s.modImg f).buffer = s.buffer := rfl
@[simp] theorem State.modImg_film (f : Imaging → Imaging) (s : State) : (s.modImg f).film = s.film := rfl
@[simp] theorem State.modImg_proof (f : Imaging → Imaging) (s : State) : (s.modImg f).proof = s.proof := rfl
@[simp] theorem State.modImg_settings (f : Imaging → Imaging) (s : State) : (s.modImg f).settings = s.settings := rfl
@[simp] theorem State.modImg_serial (f : Imaging → Imaging) (s : State) : (s.modImg f).serial = s.serial := rfl
@[simp] theorem State.modImg_port (f : Imaging → Imaging) (s : State) : (s.modImg f).port = s.port := rfl
@[simp] theorem State.modImg_pending (f : Imaging → Imaging) (s : State) : (s.modImg f).pending = s.pending := rfl

@[simp] theorem State.modProof_links (f : ProofChannel → ProofChannel) (s : State) : (s.modProof f).links = s.links := rfl
@[simp] theorem State.modProof_store (f : ProofChannel → ProofChannel) (s : State) : (s.modProof f).store = s.store := rfl
@[simp] theorem State.modProof_jobs (f : ProofChannel → ProofChannel) (s : State) : (s.modProof f).jobs = s.jobs := rfl
@[simp] theorem State.modProof_queue (f : ProofChannel → ProofChannel) (s : State) : (s.modProof f).queue = s.queue := rfl
@[simp] theorem State.modProof_dir (f : ProofChannel → ProofChannel) (s : State) : (s.modProof f).dir = s.dir := rfl
@[simp] theorem State.modProof_mount (f : ProofChannel → ProofChannel) (s : State) : (s.modProof f).mount = s.mount := rfl
@[simp] theorem State.modProof_engine (f : ProofChannel → ProofChannel) (s : State) : (s.modProof f).engine = s.engine := rfl
@[simp] theorem State.modProof_dict (f : ProofChannel → ProofChannel) (s : State) : (s.modProof f).dict = s.dict := rfl
@[simp] theorem State.modProof_buffer (f : ProofChannel → ProofChannel) (s : State) : (s.modProof f).buffer = s.buffer := rfl
@[simp] theorem State.modProof_imaging (f : ProofChannel → ProofChannel) (s : State) : (s.modProof f).imaging = s.imaging := rfl
@[simp] theorem State.modProof_film (f : ProofChannel → ProofChannel) (s : State) : (s.modProof f).film = s.film := rfl
@[simp] theorem State.modProof_settings (f : ProofChannel → ProofChannel) (s : State) : (s.modProof f).settings = s.settings := rfl
@[simp] theorem State.modProof_serial (f : ProofChannel → ProofChannel) (s : State) : (s.modProof f).serial = s.serial := rfl
@[simp] theorem State.modProof_port (f : ProofChannel → ProofChannel) (s : State) : (s.modProof f).port = s.port := rfl
@[simp] theorem State.modProof_pending (f : ProofChannel → ProofChannel) (s : State) : (s.modProof f).pending = s.pending := rfl

@[simp] theorem State.reply_store (d : Desk) (t : Byte) (c : ReplyCode) (x : List Byte) (s : State) : (s.reply d t c x).store = s.store := rfl
@[simp] theorem State.reply_jobs (d : Desk) (t : Byte) (c : ReplyCode) (x : List Byte) (s : State) : (s.reply d t c x).jobs = s.jobs := rfl
@[simp] theorem State.reply_queue (d : Desk) (t : Byte) (c : ReplyCode) (x : List Byte) (s : State) : (s.reply d t c x).queue = s.queue := rfl
@[simp] theorem State.reply_dir (d : Desk) (t : Byte) (c : ReplyCode) (x : List Byte) (s : State) : (s.reply d t c x).dir = s.dir := rfl
@[simp] theorem State.reply_mount (d : Desk) (t : Byte) (c : ReplyCode) (x : List Byte) (s : State) : (s.reply d t c x).mount = s.mount := rfl
@[simp] theorem State.reply_engine (d : Desk) (t : Byte) (c : ReplyCode) (x : List Byte) (s : State) : (s.reply d t c x).engine = s.engine := rfl
@[simp] theorem State.reply_dict (d : Desk) (t : Byte) (c : ReplyCode) (x : List Byte) (s : State) : (s.reply d t c x).dict = s.dict := rfl
@[simp] theorem State.reply_buffer (d : Desk) (t : Byte) (c : ReplyCode) (x : List Byte) (s : State) : (s.reply d t c x).buffer = s.buffer := rfl
@[simp] theorem State.reply_imaging (d : Desk) (t : Byte) (c : ReplyCode) (x : List Byte) (s : State) : (s.reply d t c x).imaging = s.imaging := rfl
@[simp] theorem State.reply_film (d : Desk) (t : Byte) (c : ReplyCode) (x : List Byte) (s : State) : (s.reply d t c x).film = s.film := rfl
@[simp] theorem State.reply_proof (d : Desk) (t : Byte) (c : ReplyCode) (x : List Byte) (s : State) : (s.reply d t c x).proof = s.proof := rfl
@[simp] theorem State.reply_settings (d : Desk) (t : Byte) (c : ReplyCode) (x : List Byte) (s : State) : (s.reply d t c x).settings = s.settings := rfl
@[simp] theorem State.reply_serial (d : Desk) (t : Byte) (c : ReplyCode) (x : List Byte) (s : State) : (s.reply d t c x).serial = s.serial := rfl
@[simp] theorem State.reply_port (d : Desk) (t : Byte) (c : ReplyCode) (x : List Byte) (s : State) : (s.reply d t c x).port = s.port := rfl
@[simp] theorem State.reply_pending (d : Desk) (t : Byte) (c : ReplyCode) (x : List Byte) (s : State) : (s.reply d t c x).pending = s.pending := rfl

@[simp] theorem State.notice_store (d : Desk) (k : NoticeKind) (j : JobId) (n : Nat) (s : State) : (s.notice d k j n).store = s.store := rfl
@[simp] theorem State.notice_jobs (d : Desk) (k : NoticeKind) (j : JobId) (n : Nat) (s : State) : (s.notice d k j n).jobs = s.jobs := rfl
@[simp] theorem State.notice_queue (d : Desk) (k : NoticeKind) (j : JobId) (n : Nat) (s : State) : (s.notice d k j n).queue = s.queue := rfl
@[simp] theorem State.notice_dir (d : Desk) (k : NoticeKind) (j : JobId) (n : Nat) (s : State) : (s.notice d k j n).dir = s.dir := rfl
@[simp] theorem State.notice_mount (d : Desk) (k : NoticeKind) (j : JobId) (n : Nat) (s : State) : (s.notice d k j n).mount = s.mount := rfl
@[simp] theorem State.notice_engine (d : Desk) (k : NoticeKind) (j : JobId) (n : Nat) (s : State) : (s.notice d k j n).engine = s.engine := rfl
@[simp] theorem State.notice_dict (d : Desk) (k : NoticeKind) (j : JobId) (n : Nat) (s : State) : (s.notice d k j n).dict = s.dict := rfl
@[simp] theorem State.notice_buffer (d : Desk) (k : NoticeKind) (j : JobId) (n : Nat) (s : State) : (s.notice d k j n).buffer = s.buffer := rfl
@[simp] theorem State.notice_imaging (d : Desk) (k : NoticeKind) (j : JobId) (n : Nat) (s : State) : (s.notice d k j n).imaging = s.imaging := rfl
@[simp] theorem State.notice_film (d : Desk) (k : NoticeKind) (j : JobId) (n : Nat) (s : State) : (s.notice d k j n).film = s.film := rfl
@[simp] theorem State.notice_proof (d : Desk) (k : NoticeKind) (j : JobId) (n : Nat) (s : State) : (s.notice d k j n).proof = s.proof := rfl
@[simp] theorem State.notice_settings (d : Desk) (k : NoticeKind) (j : JobId) (n : Nat) (s : State) : (s.notice d k j n).settings = s.settings := rfl
@[simp] theorem State.notice_serial (d : Desk) (k : NoticeKind) (j : JobId) (n : Nat) (s : State) : (s.notice d k j n).serial = s.serial := rfl
@[simp] theorem State.notice_port (d : Desk) (k : NoticeKind) (j : JobId) (n : Nat) (s : State) : (s.notice d k j n).port = s.port := rfl
@[simp] theorem State.notice_pending (d : Desk) (k : NoticeKind) (j : JobId) (n : Nat) (s : State) : (s.notice d k j n).pending = s.pending := rfl

@[simp] theorem State.noticeAll_store (k : NoticeKind) (n : Nat) (s : State) : (s.noticeAll k n).store = s.store := rfl
@[simp] theorem State.noticeAll_jobs (k : NoticeKind) (n : Nat) (s : State) : (s.noticeAll k n).jobs = s.jobs := rfl
@[simp] theorem State.noticeAll_queue (k : NoticeKind) (n : Nat) (s : State) : (s.noticeAll k n).queue = s.queue := rfl
@[simp] theorem State.noticeAll_dir (k : NoticeKind) (n : Nat) (s : State) : (s.noticeAll k n).dir = s.dir := rfl
@[simp] theorem State.noticeAll_mount (k : NoticeKind) (n : Nat) (s : State) : (s.noticeAll k n).mount = s.mount := rfl
@[simp] theorem State.noticeAll_engine (k : NoticeKind) (n : Nat) (s : State) : (s.noticeAll k n).engine = s.engine := rfl
@[simp] theorem State.noticeAll_dict (k : NoticeKind) (n : Nat) (s : State) : (s.noticeAll k n).dict = s.dict := rfl
@[simp] theorem State.noticeAll_buffer (k : NoticeKind) (n : Nat) (s : State) : (s.noticeAll k n).buffer = s.buffer := rfl
@[simp] theorem State.noticeAll_imaging (k : NoticeKind) (n : Nat) (s : State) : (s.noticeAll k n).imaging = s.imaging := rfl
@[simp] theorem State.noticeAll_film (k : NoticeKind) (n : Nat) (s : State) : (s.noticeAll k n).film = s.film := rfl
@[simp] theorem State.noticeAll_proof (k : NoticeKind) (n : Nat) (s : State) : (s.noticeAll k n).proof = s.proof := rfl
@[simp] theorem State.noticeAll_settings (k : NoticeKind) (n : Nat) (s : State) : (s.noticeAll k n).settings = s.settings := rfl
@[simp] theorem State.noticeAll_serial (k : NoticeKind) (n : Nat) (s : State) : (s.noticeAll k n).serial = s.serial := rfl
@[simp] theorem State.noticeAll_port (k : NoticeKind) (n : Nat) (s : State) : (s.noticeAll k n).port = s.port := rfl
@[simp] theorem State.noticeAll_pending (k : NoticeKind) (n : Nat) (s : State) : (s.noticeAll k n).pending = s.pending := rfl

/-! ## The field an update changes -/

/-- An entry of a vector after one is replaced. -/
@[simp] theorem put_get {α : Type} {n : Nat} (v : Vector α n) (i : Fin n) (a : α) (k : Nat) (h : k < n) :
    (put v i a)[k] = if i.val = k then a else v[k] := Vector.getElem_set _ _

theorem put_same {α : Type} {n : Nat} (v : Vector α n) (i : Fin n) (a : α) : (put v i a)[i] = a := by simp

theorem put_other {α : Type} {n : Nat} (v : Vector α n) (i j : Fin n) (a : α) (h : i ≠ j) : (put v i a)[j] = v[j] := by
  simp [Fin.val_ne_of_ne h]

@[simp] theorem State.modLink_get (d : Desk) (f : Link → Link) (s : State) (k : Nat) (h : k < 4) :
    (s.modLink d f).links[k] = if d.val = k then f s.links[d] else s.links[k] := put_get _ _ _ _ _

@[simp] theorem State.modJob_get (j : JobId) (f : Job → Job) (s : State) (k : Nat) (h : k < 32) :
    (s.modJob j f).jobs[k] = if j.val = k then f s.jobs[j] else s.jobs[k] := put_get _ _ _ _ _

@[simp] theorem State.modPos_get (p : Pos) (f : Position → Position) (s : State) (k : Nat) (h : k < 6) :
    (s.modPos p f).mount.pos[k] = if p.val = k then f s.mount.pos[p] else s.mount.pos[k] := put_get _ _ _ _ _

@[simp] theorem State.modFilm_film (f : Film → Film) (s : State) : (s.modFilm f).film = f s.film := rfl

@[simp] theorem State.modImg_imaging (f : Imaging → Imaging) (s : State) : (s.modImg f).imaging = f s.imaging := rfl

@[simp] theorem State.modProof_proof (f : ProofChannel → ProofChannel) (s : State) : (s.modProof f).proof = f s.proof := rfl

@[simp] theorem State.send_port (c : MechCommand) (s : State) : (s.send c).port = s.port ++ [c] := rfl

/-- A change made on all four links, read at one of them. -/
@[simp] theorem State.modLinks_get (f : Link → Link) (s : State) (k : Nat) (h : k < 4) :
    (s.modLinks f).links[k] = f s.links[k] := by
  match k, h with
  | 0, _ => rfl
  | 1, _ => rfl
  | 2, _ => rfl
  | 3, _ => rfl

end Sys2Proof.Machine
end

