-- ==== Sys2Proof/Laws/Receiver.lean ====
section
/-! SUPPORT. The receiver: a frame that arrives whole on a listening link is a good frame (R21). -/

namespace Sys2Proof.Machine

theorem put_put {α : Type} {n : Nat} (v : Vector α n) (i : Fin n) (a b : α) : put (put v i a) i b = put v i b := by
  ext k hk
  simp only [put_get]
  split <;> rfl

theorem put_self {α : Type} {n : Nat} (v : Vector α n) (i : Fin n) : put v i v[i] = v := by
  ext k hk
  simp only [put_get]
  split
  · next h => subst h; rfl
  · rfl

/-- Two changes of one link are one. -/
theorem State.modLink_modLink (d : Desk) (f g : Link → Link) (s : State) :
    (s.modLink d f).modLink d g = s.modLink d (fun l => g (f l)) := by
  simp only [State.modLink, put_put, put_same]

theorem setReceiver_setReceiver (d : Desk) (r q : Receiver) (s : State) :
    setReceiver d r (setReceiver d q s) = setReceiver d r s := by
  simp only [setReceiver, State.modLink_modLink]

/-- The receiver's phase set to what it is. -/
theorem setReceiver_same (d : Desk) (r : Receiver) (s : State) (h : s.links[d].rx = r) : setReceiver d r s = s := by
  have : ({ s.links[d] with rx := r } : Link) = s.links[d] := by rw [← h]
  simp only [setReceiver, State.modLink, this, put_self]

theorem setReceiver_rx (d : Desk) (r : Receiver) (s : State) : (setReceiver d r s).links[d].rx = r := by
  simp [setReceiver]

theorem setReceiver_spacing (d : Desk) (r : Receiver) (s : State) :
    (setReceiver d r s).links[d].spacing = s.links[d].spacing := by
  simp [setReceiver]

/-- A byte in BODY before the check byte joins the partial frame. -/
theorem receiveByte_body (d : Desk) (n : Nat) (got : List Byte) (b : Byte) (s : State)
    (hs : s.links[d].spacing = false) (hn : got.length < n) :
    receiveByte d (setReceiver d (.body n got) s) b = setReceiver d (.body n (got ++ [b])) s := by
  unfold receiveByte
  simp only [setReceiver_spacing, hs, setReceiver_rx, hn, if_true, setReceiver_setReceiver, Bool.false_eq_true, if_false]

/-- Bytes in BODY before the check byte join the partial frame. -/
theorem receiveBytes_body (d : Desk) (n : Nat) (bs got : List Byte) (s : State) (hs : s.links[d].spacing = false)
    (hn : got.length + bs.length ≤ n) :
    receiveBytes d bs (setReceiver d (.body n got) s) = setReceiver d (.body n (got ++ bs)) s := by
  induction bs generalizing got with
  | nil => simp [receiveBytes]
  | cons b r ih =>
    have hb : got.length < n := by simp at hn; omega
    have hr : (got ++ [b]).length + r.length ≤ n := by simp at hn ⊢; omega
    show receiveBytes d r (receiveByte d (setReceiver d (.body n got) s) b) = _
    rw [receiveByte_body d n got b s hs hb, ih (got ++ [b]) hr]
    simp

theorem byteOf_toNat (n : Nat) (h : n < 256) : (byteOf n).toNat = n := by
  simp [byteOf, BitVec.toNat_ofNat, Nat.mod_eq_of_lt h]

/-- The first two bytes of a frame, of a length from 1 to 72. -/
theorem receive_start (d : Desk) (n : Nat) (s : State) (h : Listening d s) (h1 : 1 ≤ n) (h2 : n ≤ 72) :
    receiveByte d (receiveByte d s 0xA5) (byteOf n) = setReceiver d (.body n []) s := by
  have e1 : receiveByte d s 0xA5 = setReceiver d .length s := by
    unfold receiveByte
    simp only [h.1, h.2, Bool.false_eq_true, if_false, if_true]
  have hn := byteOf_toNat n (by omega)
  rw [e1]
  unfold receiveByte
  simp only [setReceiver_spacing, h.2, setReceiver_rx, hn, h1, h2, and_self, if_true, setReceiver_setReceiver,
    Bool.false_eq_true, if_false]

/-- The last byte of a frame completes it. -/
theorem receive_last (d : Desk) (n : Nat) (body : List Byte) (b : Byte) (s : State) (h : Listening d s)
    (hn : body.length = n) :
    receiveByte d (setReceiver d (.body n body) s) b = frameComplete d n (body ++ [b]) s := by
  unfold receiveByte
  have : ¬ body.length < n := by omega
  simp only [setReceiver_spacing, h.2, setReceiver_rx, this, if_false, Bool.false_eq_true]
  unfold frameComplete
  simp only [setReceiver_setReceiver]

/-- A whole frame's bytes: the lead, a length from 1 to 72, the body and its last byte. -/
theorem receive_whole (d : Desk) (n : Nat) (body : List Byte) (b : Byte) (s : State) (h : Listening d s) (h1 : 1 ≤ n)
    (h2 : n ≤ 72) (hn : body.length = n) :
    receiveBytes d (0xA5 :: byteOf n :: (body ++ [b])) s = frameComplete d n (body ++ [b]) s := by
  have e : receiveBytes d (0xA5 :: byteOf n :: (body ++ [b])) s =
      receiveByte d (receiveBytes d body (receiveByte d (receiveByte d s 0xA5) (byteOf n))) b := by
    simp [receiveBytes, List.foldl_append]
  rw [e, receive_start d n s h h1 h2, receiveBytes_body d n body [] s h.2 (by simp; omega)]
  simpa using receive_last d n body b s h hn

theorem foldl_add (bs : List Byte) (a : Byte) : bs.foldl (· + ·) a = a + sumBytes bs := by
  induction bs generalizing a with
  | nil => simp [sumBytes]
  | cons b r ih => simp [sumBytes, ih (a + b), ih b, BitVec.add_assoc]

theorem sumBytes_append (as bs : List Byte) : sumBytes (as ++ bs) = sumBytes as + sumBytes bs := by
  simp only [sumBytes, List.foldl_append]
  exact foldl_add bs _

/-- A complete frame on a listening link whose bytes sum to 0 is good; any other is counted bad. -/
theorem frameComplete_good (d : Desk) (t : Byte) (p : List Byte) (n : Nat) (b : Byte) (s : State) (h : Listening d s)
    (hs : byteOf n + sumBytes (t :: p ++ [b]) = 0) : frameComplete d n (t :: p ++ [b]) s = goodFrame d ⟨t, p⟩ s := by
  unfold frameComplete
  simp only [hs, if_true, setReceiver_same d .hunt s h.1]
  simp

theorem frameComplete_bad (d : Desk) (n : Nat) (body : List Byte) (s : State) (h : Listening d s)
    (hs : byteOf n + sumBytes body ≠ 0) : frameComplete d n body s = countBad d s := by
  unfold frameComplete
  simp only [hs, if_false, setReceiver_same d .hunt s h.1]

/-- A frame that arrives whole on a listening link is a good frame. -/
theorem receiveFrame_eq (d : Desk) (t : Byte) (p : List Byte) (s : State) (h : Listening d s) (hp : p.length ≤ 71) :
    receiveFrame d t p s = goodFrame d ⟨t, p⟩ s := by
  have e : envelope t p = 0xA5 :: byteOf (p.length + 1) :: ((t :: p) ++ [checkByte t p]) := by simp [envelope]
  unfold receiveFrame
  rw [e, receive_whole d (p.length + 1) (t :: p) _ s h (by omega) (by omega) (by simp)]
  apply frameComplete_good d t p _ _ s h
  rw [sumBytes_append, ← BitVec.add_assoc]
  simp [checkByte, sumBytes]

/-- A link that takes a frame at once restarts its silence timer and takes the request. -/
theorem goodFrame_taken (d : Desk) (f : Frame) (s : State) (h : Takes d s) :
    goodFrame d f s = takeRequest d f (restartSilence d s) := by
  have hk : (restartSilence d s).links[d].kept = none := by simpa [restartSilence] using h.2.1
  have hq : (restartSilence d s).links[d].queue.length < Config.queueSize := by simpa [restartSilence] using h.2.2
  unfold goodFrame
  simp only [hk, Option.isSome_none, Bool.false_eq_true, if_false, Nat.not_le.mpr hq]

/-- A request of a known type from a desk whose level allows it is handled. -/
theorem takeRequest_allowed (d : Desk) (f : Frame) (s : State) (h : Allowed d f.type s) :
    takeRequest d f s = handleRequest d f.type f.payload s := by
  obtain ⟨lv, h1, h2⟩ := h
  simp only [takeRequest, h1, Nat.not_lt.mpr h2, if_false]

/-- A frame sent to a link that takes it, of a type the desk may send: the request is handled, after the restart of the
silence timer. -/
theorem receiveFrame_handled (d : Desk) (t : Byte) (p : List Byte) (s : State) (h : Takes d s) (ha : Allowed d t s)
    (hp : p.length ≤ 71) : receiveFrame d t p s = handleRequest d t p (restartSilence d s) := by
  rw [receiveFrame_eq d t p s h.1 hp, goodFrame_taken d _ s h]
  exact takeRequest_allowed d ⟨t, p⟩ _ ha

/-- A request command's answer is that of its frame. -/
theorem exec_frame (c : Instr) (d : Desk) (f : Frame) (s : State) (h : frameOf c = some (d, f)) :
    exec c s = .next (receiveFrame d f.type f.payload s) := by
  cases c <;> simp only [frameOf, Option.some.injEq, Prod.mk.injEq, reduceCtorEq] at h <;> obtain ⟨rfl, rfl⟩ := h <;> rfl

/-- A well-formed request command's payload fits a frame. -/
theorem frame_fits (c : Instr) (d : Desk) (f : Frame) (h : frameOf c = some (d, f)) (hw : c.wellFormed = true) :
    f.payload.length ≤ 71 := by
  cases c <;> simp only [frameOf, Option.some.injEq, Prod.mk.injEq, reduceCtorEq] at h <;> obtain ⟨rfl, rfl⟩ := h <;>
    simp [Instr.wellFormed, payloadFits, decidePayload, beWord, be2] at hw ⊢ <;> omega

end Sys2Proof.Machine
end

