-- ==== Sys2Proof/Laws/Commands.lean ====
section
/-! SUPPORT. What each command that is no request answers: one equation a command, so that no proof unfolds the dispatch.
For the request commands see exec_frame (Laws/Receiver.lean). -/

namespace Sys2Proof.Machine

theorem exec_reset (s : State) : exec .reset s = .next (startUp s) := rfl

theorem exec_badFrame (d : Desk) (bs : List Byte) (s : State) : exec (.badFrame d bs) s = .next (receiveBytes d bs s) := rfl

theorem exec_keptRequestTaken (d : Desk) (s : State) : exec (.keptRequestTaken d) s = .next (takeKept d s) := rfl

theorem exec_frameSent (d : Desk) (s : State) : exec (.frameSent d) s = .next (frameSent d s) := rfl

theorem exec_saveComplete (s : State) : exec .saveComplete s = .next (endSave s) := rfl

theorem exec_breakCondition (d : Desk) (s : State) : exec (.breakCondition d) s = .next (breakLink d s) := rfl

theorem exec_holdTimerExpiry (d : Desk) (s : State) : exec (.holdTimerExpiry d) s = .next (holdExpired d s) := rfl

theorem exec_silenceTimerExpiry (d : Desk) (s : State) : exec (.silenceTimerExpiry d) s = .next (silenceExpired d s) := rfl

theorem exec_heldTimeout (j : JobId) (s : State) : exec (.heldTimeout j) s = .next (heldExpired j s) := rfl

theorem exec_confirmTimerExpiry (s : State) : exec .confirmTimerExpiry s = .next (confirmExpired s) := rfl

theorem exec_flashTimeout (s : State) : exec .flashTimeout s = .next (flashExpired s) := rfl

theorem exec_cutTimerExpiry (s : State) : exec .cutTimerExpiry s = .next (cutExpired s) := rfl

theorem exec_lineBuild (s : State) : exec .lineBuild s = .next (takeBuild s) := rfl

theorem exec_confirm (k : ConfirmKind) (s : State) : exec (.confirm k) s = .next (confirmed k s) := rfl

theorem exec_flashDone (r : BitVec 10) (s : State) : exec (.flashDone r) s = .next (flashDone r.toNat s) := rfl

theorem exec_stripCode (p : Pos) (c : Option Byte) (s : State) : exec (.stripCode p c) s = .next (stripRead p c s) := rfl

theorem exec_stripIn (p : Pos) (c : Byte) (s : State) : exec (.stripIn p c) s = .next (stripFitted p c s) := rfl

theorem exec_stripOut (p : Pos) (s : State) : exec (.stripOut p) s = .next (stripRemoved p s) := rfl

theorem exec_lampChanged (s : State) : exec .lampChanged s = .next (lampChanged s) := rfl

theorem exec_clear (s : State) : exec .clear s = .next (clearFault s) := rfl

theorem exec_moveDone (s : State) : exec .moveDone s = .next (moveDone s) := rfl

theorem exec_cutDone (s : State) : exec .cutDone s = .next (cutDone s) := rfl

theorem exec_cutButton (s : State) : exec .cutButton s = .next (askCut s) := rfl

theorem exec_magazineLoaded (n : BitVec 16) (s : State) : exec (.magazineLoaded n) s = .next (magazineLoaded n.toNat s) := rfl

theorem exec_magazineOut (s : State) : exec .magazineOut s = .next (magazineOut s) := rfl

theorem exec_takeUpIn (s : State) : exec .takeUpIn s = .next (switchEvent (fun f => { f with takeUp := true }) s) := rfl

theorem exec_takeUpOut (s : State) : exec .takeUpOut s = .next (switchEvent (fun f => { f with takeUp := false }) s) := rfl

theorem exec_doorOpen (s : State) : exec .doorOpen s = .next (switchEvent (fun f => { f with doorClosed := false }) s) := rfl

theorem exec_doorClosed (s : State) : exec .doorClosed s = .next (switchEvent (fun f => { f with doorClosed := true }) s) := rfl

theorem exec_ready (s : State) : exec .ready s = .next (printerReady s) := rfl

theorem exec_paperOut (s : State) : exec .paperOut s = .next (printerStops .paperOut s) := rfl

theorem exec_fault (s : State) : exec .fault s = .next (printerStops .fault s) := rfl

theorem exec_accept (s : State) : exec .accept s = .next (accepted s) := rfl

theorem exec_returnToMarking (d : Desk) (s : State) : exec (.returnToMarking d) s = .next (s.modLink d fun l => { l with spacing := false }) := rfl

end Sys2Proof.Machine
end

