-- ==== Sys2Proof/Laws/Frames.lean ====
section
/-! SUPPORT. What the operations leave alone: all of them but the request handlers of TEXT, the writes of commissioning
state and the saves keep the directory, the dictionary, the settings, the serial memory, the waiting commands and every
byte of the galley store. -/

set_option linter.unusedSimpArgs false
set_option linter.unnecessarySeqFocus false
set_option linter.unusedTactic false

namespace Sys2Proof.Machine

/-- The state that only a few commands write. -/
def State.kept (s : State) : Directory × Dictionary × Settings × SerialStore × List Instr × List Host.Cell :=
  (s.dir, s.dict, s.settings, s.serial, s.pending, s.store.cells)

/-- A fold of changes that each keep it keeps it. -/
theorem foldl_kept {α : Type} (f : State → α → State) (h : ∀ s a, (f s a).kept = s.kept) (as : List α) (s : State) :
    (as.foldl f s).kept = s.kept := by
  induction as generalizing s with
  | nil => rfl
  | cons a r ih => exact (ih (f s a)).trans (h s a)

/-- An update of the other fields. -/
theorem kept_with (s : State) (links : Vector Link 4) (jobs : Vector Job 32) (queue : JobQueue) (mount : MountTable)
    (engine : Engine) (buffer : List Record) (imaging : Imaging) (film : Film) (proof : ProofChannel)
    (port : List MechCommand) :
    State.kept { s with links := links, jobs := jobs, queue := queue, mount := mount, engine := engine, buffer := buffer,
                        imaging := imaging, film := film, proof := proof, port := port } = s.kept := rfl


@[simp] theorem State.modLink_kept (d : Desk) (f : Link → Link) (s : State) : (s.modLink d f).kept = s.kept := rfl
@[simp] theorem State.modLinks_kept (f : Link → Link) (s : State) : (s.modLinks f).kept = s.kept := rfl
@[simp] theorem State.modJob_kept (j : JobId) (f : Job → Job) (s : State) : (s.modJob j f).kept = s.kept := rfl
@[simp] theorem State.send_kept (c : MechCommand) (s : State) : (s.send c).kept = s.kept := rfl
@[simp] theorem State.modPos_kept (p : Pos) (f : Position → Position) (s : State) : (s.modPos p f).kept = s.kept := rfl
@[simp] theorem State.modFilm_kept (f : Film → Film) (s : State) : (s.modFilm f).kept = s.kept := rfl
@[simp] theorem State.modImg_kept (f : Imaging → Imaging) (s : State) : (s.modImg f).kept = s.kept := rfl
@[simp] theorem State.modProof_kept (f : ProofChannel → ProofChannel) (s : State) : (s.modProof f).kept = s.kept := rfl
@[simp] theorem State.reply_kept (d : Desk) (t : Byte) (c : ReplyCode) (x : List Byte) (s : State) : (s.reply d t c x).kept = s.kept := rfl
@[simp] theorem State.notice_kept (d : Desk) (k : NoticeKind) (j : JobId) (n : Nat) (s : State) : (s.notice d k j n).kept = s.kept := rfl
@[simp] theorem State.noticeAll_kept (k : NoticeKind) (n : Nat) (s : State) : (s.noticeAll k n).kept = s.kept := rfl

/-! ## Ops -/

@[simp] theorem State.decideHold_kept (s : State) : (State.decideHold s).kept = s.kept := by
  unfold State.decideHold
  (repeat' split) <;> simp [foldl_kept, ↓kept_with, apply_ite State.kept]

@[simp] theorem State.decideResume_kept (s : State) : (State.decideResume s).kept = s.kept := by
  unfold State.decideResume
  (repeat' split) <;> simp [foldl_kept, ↓kept_with, apply_ite State.kept]

/-! ## Galley -/

@[simp] theorem flowAfterTaking_kept (s : State) : (flowAfterTaking s).kept = s.kept := by
  unfold flowAfterTaking
  (repeat' split) <;> simp [foldl_kept, ↓kept_with, apply_ite State.kept]

@[simp] theorem flowAfterFreeing_kept (s : State) : (flowAfterFreeing s).kept = s.kept := by
  unfold flowAfterFreeing
  (repeat' split) <;> simp [foldl_kept, ↓kept_with, apply_ite State.kept]

@[simp] theorem flowIfFreed_kept (before : Nat) (s : State) : (flowIfFreed before s).kept = s.kept := by
  unfold flowIfFreed
  (repeat' split) <;> simp [foldl_kept, ↓kept_with, apply_ite State.kept]

@[simp] theorem flowAfterWrite_kept (s : State) : (flowAfterWrite s).kept = s.kept := by
  unfold flowAfterWrite
  (repeat' split) <;> simp [foldl_kept, ↓kept_with, apply_ite State.kept]

@[simp] theorem releaseChain_kept (j : JobId) (s : State) : (releaseChain j s).kept = s.kept := by
  have h : ∀ (bs : List Nat) (st : Store), (st.freeBlocks bs).cells = st.cells := by
    intro bs
    induction bs with
    | nil => intro st; rfl
    | cons b r ih =>
      intro st
      show ((Store.joinFree st b).freeBlocks r).cells = st.cells
      rw [ih]
      unfold Store.joinFree Store.setNext
      split <;> rfl
  simp [State.kept, releaseChain, h]

@[simp] theorem freeJob_kept (j : JobId) (s : State) : (freeJob j s).kept = s.kept := by
  unfold freeJob
  (repeat' split) <;> simp [foldl_kept, ↓kept_with, apply_ite State.kept]

@[simp] theorem abandon_kept (d : Desk) (j : JobId) (reason : JobReason) (s : State) : (abandon d j reason s).kept = s.kept := by
  unfold abandon
  (repeat' split) <;> simp [foldl_kept, ↓kept_with, apply_ite State.kept]

@[simp] theorem abandonReceiving_kept (d : Desk) (reason : JobReason) (s : State) : (abandonReceiving d reason s).kept = s.kept := by
  unfold abandonReceiving
  (repeat' split) <;> simp [foldl_kept, ↓kept_with, apply_ite State.kept]

/-! ## Queue -/

@[simp] theorem enterTail_kept (j : JobId) (s : State) : (enterTail j s).kept = s.kept := by
  unfold enterTail
  (repeat' split) <;> simp [foldl_kept, ↓kept_with, apply_ite State.kept]

@[simp] theorem selectJob_kept (j : JobId) (s : State) : (selectJob j s).kept = s.kept := by
  unfold selectJob
  (repeat' split) <;> simp [foldl_kept, ↓kept_with, apply_ite State.kept]

@[simp] theorem trySelect_kept (s : State) : (trySelect s).kept = s.kept := by
  unfold trySelect
  (repeat' split) <;> simp [foldl_kept, ↓kept_with, apply_ite State.kept]

@[simp] theorem idleEngine_kept (s : State) : (idleEngine s).kept = s.kept := by
  unfold idleEngine
  (repeat' split) <;> simp [foldl_kept, ↓kept_with, apply_ite State.kept]

@[simp] theorem refreshEngine_kept (s : State) : (refreshEngine s).kept = s.kept := by
  unfold refreshEngine
  (repeat' split) <;> simp [foldl_kept, ↓kept_with, apply_ite State.kept]

@[simp] theorem stopComposing_kept (j : JobId) (f : Job → Job) (s : State) : (stopComposing j f s).kept = s.kept := by
  unfold stopComposing
  (repeat' split) <;> simp [foldl_kept, ↓kept_with, apply_ite State.kept]

@[simp] theorem decideHeld_kept (j : JobId) (h : HeldRecord) (a : Action) (s : State) : (decideHeld j h a s).kept = s.kept := by
  unfold decideHeld
  (repeat' split) <;> simp [foldl_kept, ↓kept_with, apply_ite State.kept]

@[simp] theorem checkJob_kept (j : JobId) (s : State) : (checkJob j s).kept = s.kept := by
  unfold checkJob
  dsimp only
  split <;> (repeat' split) <;> simp

@[simp] theorem checkJobs_kept (js : List JobId) (s : State) : (checkJobs js s).kept = s.kept := by
  unfold checkJobs
  (repeat' split) <;> simp [foldl_kept, ↓kept_with, apply_ite State.kept]

/-! ## Fonts -/

@[simp] theorem pin_kept (p : Pos) (s : State) : (pin p s).kept = s.kept := by
  unfold pin
  (repeat' split) <;> simp [foldl_kept, ↓kept_with, apply_ite State.kept]

@[simp] theorem unpin_kept (p : Pos) (s : State) : (unpin p s).kept = s.kept := by
  unfold unpin
  (repeat' split) <;> simp [foldl_kept, ↓kept_with, apply_ite State.kept]

@[simp] theorem countFlash_kept (p : Pos) (s : State) : (countFlash p s).kept = s.kept := by
  unfold countFlash
  (repeat' split) <;> simp [foldl_kept, ↓kept_with, apply_ite State.kept]

@[simp] theorem requeueWaiter_kept (j : JobId) (s : State) : (requeueWaiter j s).kept = s.kept := by
  unfold requeueWaiter
  (repeat' split) <;> simp [foldl_kept, ↓kept_with, apply_ite State.kept]

@[simp] theorem noticeMountWait_kept (font : Nat) (j : JobId) (s : State) : (noticeMountWait font j s).kept = s.kept := by
  unfold noticeMountWait
  (repeat' split) <;> simp [foldl_kept, ↓kept_with, apply_ite State.kept]

@[simp] theorem promoteWaiting_kept (n : Nat) (s : State) : (promoteWaiting n s).kept = s.kept := by
  induction n generalizing s with
  | zero => rfl
  | succ n ih =>
    unfold promoteWaiting
    (repeat' split) <;> simp [ih, foldl_kept, ↓kept_with]

@[simp] theorem releaseWaiters_kept (f : Nat) (s : State) : (releaseWaiters f s).kept = s.kept := by
  unfold releaseWaiters
  (repeat' split) <;> simp [foldl_kept, ↓kept_with, apply_ite State.kept]

@[simp] theorem leaveWaiters_kept (j : JobId) (s : State) : (leaveWaiters j s).kept = s.kept := by
  unfold leaveWaiters
  (repeat' split) <;> simp [foldl_kept, ↓kept_with, apply_ite State.kept]

@[simp] theorem enterWaiter_kept (j : JobId) (f : Nat) (s : State) : (enterWaiter j f s).kept = s.kept := by
  unfold enterWaiter
  (repeat' split) <;> simp [foldl_kept, ↓kept_with, apply_ite State.kept]

@[simp] theorem refreshMount_kept (s : State) : (refreshMount s).kept = s.kept := by
  unfold refreshMount
  (repeat' split) <;> simp [foldl_kept, ↓kept_with, apply_ite State.kept]

@[simp] theorem classifyStrip_kept (p : Pos) (c : Nat) (s : State) : (classifyStrip p c s).kept = s.kept := by
  unfold classifyStrip
  (repeat' split) <;> simp [foldl_kept, ↓kept_with, apply_ite State.kept]

@[simp] theorem reclassifyAt_kept (s : State) (p : Pos) : (reclassifyAt s p).kept = s.kept := by
  unfold reclassifyAt
  (repeat' split) <;> simp [foldl_kept, ↓kept_with, apply_ite State.kept]

@[simp] theorem reclassify_kept (s : State) : (reclassify s).kept = s.kept := by
  unfold reclassify
  (repeat' split) <;> simp [foldl_kept, ↓kept_with, apply_ite State.kept]

@[simp] theorem emptyPosition_kept (p : Pos) (s : State) : (emptyPosition p s).kept = s.kept := by
  unfold emptyPosition
  (repeat' split) <;> simp [foldl_kept, ↓kept_with, apply_ite State.kept]

/-! ## Buffer -/

@[simp] theorem pinRecord_kept (r : Record) (s : State) : (pinRecord r s).kept = s.kept := by
  unfold pinRecord
  (repeat' split) <;> simp [foldl_kept, ↓kept_with, apply_ite State.kept]

@[simp] theorem unpinRecord_kept (r : Record) (s : State) : (unpinRecord r s).kept = s.kept := by
  unfold unpinRecord
  (repeat' split) <;> simp [foldl_kept, ↓kept_with, apply_ite State.kept]

@[simp] theorem releasePins_kept (r : Record) (s : State) : (releasePins r s).kept = s.kept := by
  unfold releasePins
  (repeat' split) <;> simp [foldl_kept, ↓kept_with, apply_ite State.kept]

@[simp] theorem appendLine_kept (j : JobId) (t : TextLine) (s : State) : (appendLine j t s).kept = s.kept := by
  unfold appendLine
  (repeat' split) <;> simp [foldl_kept, ↓kept_with, apply_ite State.kept]

@[simp] theorem appendCut_kept (j : JobId) (s : State) : (appendCut j s).kept = s.kept := by
  unfold appendCut
  (repeat' split) <;> simp [foldl_kept, ↓kept_with, apply_ite State.kept]

@[simp] theorem sweep_kept (s : State) : (sweep s).kept = s.kept := by
  unfold sweep
  (repeat' split) <;> simp [foldl_kept, ↓kept_with, apply_ite State.kept]

@[simp] theorem askImaging_kept (s : State) : (askImaging s).kept = s.kept := by
  unfold askImaging
  (repeat' split) <;> simp [foldl_kept, ↓kept_with, apply_ite State.kept]

@[simp] theorem finishImaging_kept (s : State) : (finishImaging s).kept = s.kept := by
  unfold finishImaging
  (repeat' split) <;> simp [foldl_kept, ↓kept_with, apply_ite State.kept]

@[simp] theorem giveBackImaging_kept (s : State) : (giveBackImaging s).kept = s.kept := by
  unfold giveBackImaging
  (repeat' split) <;> simp [foldl_kept, ↓kept_with, apply_ite State.kept]

@[simp] theorem finishProof_kept (s : State) : (finishProof s).kept = s.kept := by
  unfold finishProof
  (repeat' split) <;> simp [foldl_kept, ↓kept_with, apply_ite State.kept]

@[simp] theorem giveBackProof_kept (s : State) : (giveBackProof s).kept = s.kept := by
  unfold giveBackProof
  (repeat' split) <;> simp [foldl_kept, ↓kept_with, apply_ite State.kept]

@[simp] theorem excuseProofs_kept (s : State) : (excuseProofs s).kept = s.kept := by
  unfold excuseProofs
  split
  split
  · rfl
  · rw [sweep_kept]
    refine (foldl_kept _ ?_ _ _).trans ?_
    · exact fun _ _ => rfl
    · rfl

@[simp] theorem cancelRecords_kept (j : JobId) (s : State) : (cancelRecords j s).kept = s.kept := by
  unfold cancelRecords
  (repeat' split) <;> simp [foldl_kept, ↓kept_with, apply_ite State.kept]

@[simp] theorem cancelJob_kept (j : JobId) (s : State) : (cancelJob j s).kept = s.kept := by
  unfold cancelJob
  (repeat' split) <;> simp [foldl_kept, ↓kept_with, apply_ite State.kept]

@[simp] theorem rewind_kept (e : JobId × Nat × Context) (s : State) : (rewind e s).kept = s.kept := by
  unfold rewind
  (repeat' split) <;> simp [foldl_kept, ↓kept_with, apply_ite State.kept]

@[simp] theorem handOver_kept (s : State) (e : JobId × Nat × Context) : (handOver s e).kept = s.kept := by
  unfold handOver
  (repeat' split) <;> simp [foldl_kept, ↓kept_with, apply_ite State.kept]

@[simp] theorem stopAtBoundary_kept (s : State) : (stopAtBoundary s).kept = s.kept := by
  unfold stopAtBoundary
  (repeat' split) <;> simp [foldl_kept, ↓kept_with, apply_ite State.kept]

@[simp] theorem flush_kept (segs : List Segment) (s : State) : (flush segs s).kept = s.kept := by
  unfold flush
  (repeat' split) <;> simp [foldl_kept, ↓kept_with, apply_ite State.kept]

/-! ## FilmTransport -/

@[simp] theorem lowTest_kept (s : State) : (lowTest s).kept = s.kept := by
  unfold lowTest
  (repeat' split) <;> simp [foldl_kept, ↓kept_with, apply_ite State.kept]

@[simp] theorem sendAdvance_kept (n : Nat) (s : State) : (sendAdvance n s).kept = s.kept := by
  unfold sendAdvance
  (repeat' split) <;> simp [foldl_kept, ↓kept_with, apply_ite State.kept]

@[simp] theorem sendReverse_kept (n : Nat) (s : State) : (sendReverse n s).kept = s.kept := by
  unfold sendReverse
  (repeat' split) <;> simp [foldl_kept, ↓kept_with, apply_ite State.kept]

@[simp] theorem beginCut_kept (why : CutPurpose) (s : State) : (beginCut why s).kept = s.kept := by
  unfold beginCut
  (repeat' split) <;> simp [foldl_kept, ↓kept_with, apply_ite State.kept]

@[simp] theorem sendBlade_kept (why : CutPurpose) (s : State) : (sendBlade why s).kept = s.kept := by
  unfold sendBlade
  (repeat' split) <;> simp [foldl_kept, ↓kept_with, apply_ite State.kept]

@[simp] theorem deliveredTo_kept (s : State) (j : JobId) : (deliveredTo s j).kept = s.kept := by
  unfold deliveredTo
  (repeat' split) <;> simp [foldl_kept, ↓kept_with, apply_ite State.kept]

@[simp] theorem countDelivered_kept (s : State) (g : Segment) : (countDelivered s g).kept = s.kept := by
  unfold countDelivered
  (repeat' split) <;> simp [foldl_kept, ↓kept_with, apply_ite State.kept]

@[simp] theorem deliver_kept (s : State) : (deliver s).kept = s.kept := by
  unfold deliver
  (repeat' split) <;> simp [foldl_kept, ↓kept_with, apply_ite State.kept]

@[simp] theorem spoil_kept (s : State) : (spoil s).kept = s.kept := by
  unfold spoil
  (repeat' split) <;> simp [foldl_kept, ↓kept_with, apply_ite State.kept]

/-! ## Sequencer -/

@[simp] theorem enterStopped_kept (r : StopReason) (s : State) : (enterStopped r s).kept = s.kept := by
  unfold enterStopped
  (repeat' split) <;> simp [foldl_kept, ↓kept_with, apply_ite State.kept]

@[simp] theorem resumeTest_kept (s : State) : (resumeTest s).kept = s.kept := by
  unfold resumeTest
  (repeat' split) <;> simp [foldl_kept, ↓kept_with, apply_ite State.kept]

@[simp] theorem abandonWork_kept (s : State) : (abandonWork s).kept = s.kept := by
  unfold abandonWork
  (repeat' split) <;> simp [foldl_kept, ↓kept_with, apply_ite State.kept]

@[simp] theorem mechanismFault_kept (r : StopReason) (s : State) : (mechanismFault r s).kept = s.kept := by
  unfold mechanismFault
  (repeat' split) <;> simp [foldl_kept, ↓kept_with, apply_ite State.kept]

@[simp] theorem cutFault_kept (s : State) : (cutFault s).kept = s.kept := by
  unfold cutFault
  (repeat' split) <;> simp [foldl_kept, ↓kept_with, apply_ite State.kept]

@[simp] theorem filmLost_kept (r : StopReason) (s : State) : (filmLost r s).kept = s.kept := by
  unfold filmLost
  (repeat' split) <;> simp [foldl_kept, ↓kept_with, apply_ite State.kept]

@[simp] theorem filmChanged_kept (s : State) : (filmChanged s).kept = s.kept := by
  unfold filmChanged
  (repeat' split) <;> simp [foldl_kept, ↓kept_with, apply_ite State.kept]

@[simp] theorem startMove_kept (m : ImgMove) (s : State) : (startMove m s).kept = s.kept := by
  unfold startMove
  (repeat' split) <;> simp [foldl_kept, ↓kept_with, apply_ite State.kept]

@[simp] theorem resend_kept (m : ImgMove) (retry : Nat) (s : State) : (resend m retry s).kept = s.kept := by
  unfold resend
  (repeat' split) <;> simp [foldl_kept, ↓kept_with, apply_ite State.kept]

@[simp] theorem endMove_kept (s : State) : (endMove s).kept = s.kept := by
  unfold endMove
  (repeat' split) <;> simp [foldl_kept, ↓kept_with, apply_ite State.kept]

@[simp] theorem flashElement_kept (e : Element) (s : State) : (flashElement e s).kept = s.kept := by
  unfold flashElement
  (repeat' split) <;> simp [foldl_kept, ↓kept_with, apply_ite State.kept]

@[simp] theorem lineExposed_kept (s : State) : (lineExposed s).kept = s.kept := by
  unfold lineExposed
  (repeat' split) <;> simp [foldl_kept, ↓kept_with, apply_ite State.kept]

@[simp] theorem runElement_kept (s : State) : (runElement s).kept = s.kept := by
  unfold runElement
  (repeat' split) <;> simp [foldl_kept, ↓kept_with, apply_ite State.kept]

@[simp] theorem beginSetting_kept (s : State) : (beginSetting s).kept = s.kept := by
  unfold beginSetting
  (repeat' split) <;> simp [foldl_kept, ↓kept_with, apply_ite State.kept]

@[simp] theorem noteFilmOut_kept (s : State) : (noteFilmOut s).kept = s.kept := by
  unfold noteFilmOut
  (repeat' split) <;> simp [foldl_kept, ↓kept_with, apply_ite State.kept]

@[simp] theorem stopFilmOut_kept (s : State) : (stopFilmOut s).kept = s.kept := by
  unfold stopFilmOut
  (repeat' split) <;> simp [foldl_kept, ↓kept_with, apply_ite State.kept]

@[simp] theorem cutFor_kept (why : CutPurpose) (s : State) : (cutFor why s).kept = s.kept := by
  unfold cutFor
  (repeat' split) <;> simp [foldl_kept, ↓kept_with, apply_ite State.kept]

@[simp] theorem reverseLine_kept (j : JobId) (l : Int) (s : State) : (reverseLine j l s).kept = s.kept := by
  unfold reverseLine
  (repeat' split) <;> simp [foldl_kept, ↓kept_with, apply_ite State.kept]

@[simp] theorem moveLine_kept (j : JobId) (l : Int) (s : State) : (moveLine j l s).kept = s.kept := by
  unfold moveLine
  (repeat' split) <;> simp [foldl_kept, ↓kept_with, apply_ite State.kept]

@[simp] theorem testLength_kept (j : JobId) (l : Int) (s : State) : (testLength j l s).kept = s.kept := by
  unfold testLength
  (repeat' split) <;> simp [foldl_kept, ↓kept_with, apply_ite State.kept]

@[simp] theorem testSegments_kept (j : JobId) (t : TextLine) (s : State) : (testSegments j t s).kept = s.kept := by
  unfold testSegments
  (repeat' split) <;> simp [foldl_kept, ↓kept_with, apply_ite State.kept]

@[simp] theorem beginRecord_kept (r : Record) (s : State) : (beginRecord r s).kept = s.kept := by
  unfold beginRecord
  (repeat' split) <;> simp [foldl_kept, ↓kept_with, apply_ite State.kept]

@[simp] theorem cutPending_kept (s : State) : (cutPending s).kept = s.kept := by
  unfold cutPending
  (repeat' split) <;> simp [foldl_kept, ↓kept_with, apply_ite State.kept]

@[simp] theorem runImaging_kept (n : Nat) (s : State) : (runImaging n s).kept = s.kept := by
  induction n generalizing s with
  | zero => rfl
  | succ n ih =>
    unfold runImaging
    (repeat' split) <;> simp [ih]

@[simp] theorem cutReported_kept (why : CutPurpose) (s : State) : (cutReported why s).kept = s.kept := by
  unfold cutReported
  (repeat' split) <;> simp [foldl_kept, ↓kept_with, apply_ite State.kept]

@[simp] theorem weakTest_kept (s : State) : (weakTest s).kept = s.kept := by
  unfold weakTest
  (repeat' split) <;> simp [foldl_kept, ↓kept_with, apply_ite State.kept]

@[simp] theorem flashEnded_kept (r : Nat) (s : State) : (flashEnded r s).kept = s.kept := by
  unfold flashEnded
  (repeat' split) <;> simp [foldl_kept, ↓kept_with, apply_ite State.kept]

@[simp] theorem lockFailure_kept (p : Pos) (s : State) : (lockFailure p s).kept = s.kept := by
  unfold lockFailure
  (repeat' split) <;> simp [foldl_kept, ↓kept_with, apply_ite State.kept]

@[simp] theorem takeStripOut_kept (p : Pos) (s : State) : (takeStripOut p s).kept = s.kept := by
  unfold takeStripOut
  (repeat' split) <;> simp [foldl_kept, ↓kept_with, apply_ite State.kept]

/-! ## Proof -/

@[simp] theorem present_kept (cs : List Byte) (s : State) : (present cs s).kept = s.kept := by
  unfold present
  (repeat' split) <;> simp [foldl_kept, ↓kept_with, apply_ite State.kept]

@[simp] theorem beginPrinting_kept (j : JobId) (t : TextLine) (s : State) : (beginPrinting j t s).kept = s.kept := by
  unfold beginPrinting
  (repeat' split) <;> simp [foldl_kept, ↓kept_with, apply_ite State.kept]

@[simp] theorem askProof_kept (s : State) : (askProof s).kept = s.kept := by
  unfold askProof
  dsimp only
  (repeat' split)
  · rfl
  · rw [beginPrinting_kept]
    rfl
  · rfl

@[simp] theorem runProof_kept (s : State) : (runProof s).kept = s.kept := by
  unfold runProof
  (repeat' split) <;> simp [foldl_kept, ↓kept_with, apply_ite State.kept]

@[simp] theorem giveBackPrinting_kept (s : State) : (giveBackPrinting s).kept = s.kept := by
  unfold giveBackPrinting
  (repeat' split) <;> simp [foldl_kept, ↓kept_with, apply_ite State.kept]

@[simp] theorem printed_kept (s : State) : (printed s).kept = s.kept := by
  unfold printed
  (repeat' split) <;> simp [foldl_kept, ↓kept_with, apply_ite State.kept]

@[simp] theorem takeAccept_kept (s : State) : (takeAccept s).kept = s.kept := by
  unfold takeAccept
  (repeat' split) <;> simp [foldl_kept, ↓kept_with, apply_ite State.kept]

/-! ## Settle -/

@[simp] theorem settleImaging_kept (s : State) : (settleImaging s).kept = s.kept := by
  unfold settleImaging
  (repeat' split) <;> simp [foldl_kept, ↓kept_with, apply_ite State.kept]

@[simp] theorem settle_kept (before : Nat) (s : State) : (settle before s).kept = s.kept := by
  unfold settle
  (repeat' split) <;> simp [foldl_kept, ↓kept_with, apply_ite State.kept]

/-! ## Engine -/

@[simp] theorem finishText_kept (j : JobId) (s : State) : (finishText j s).kept = s.kept := by
  unfold finishText
  (repeat' split) <;> simp [foldl_kept, ↓kept_with, apply_ite State.kept]

@[simp] theorem afterLine_kept (j : JobId) (request atEnd : Bool) (s : State) : (afterLine j request atEnd s).kept = s.kept := by
  unfold afterLine
  (repeat' split) <;> simp [foldl_kept, ↓kept_with, apply_ite State.kept]

@[simp] theorem appendOwed_kept (j : JobId) (o : OwedCut) (s : State) : (appendOwed j o s).kept = s.kept := by
  unfold appendOwed
  (repeat' split) <;> simp [foldl_kept, ↓kept_with, apply_ite State.kept]

@[simp] theorem preempt_kept (j : JobId) (s : State) : (preempt j s).kept = s.kept := by
  unfold preempt
  (repeat' split) <;> simp [foldl_kept, ↓kept_with, apply_ite State.kept]

@[simp] theorem recordLine_kept (j : JobId) (c : Closed) (placed : List Placed) (first : Option Nat) (exc : Raised) (s : State) : (recordLine j c placed first exc s).kept = s.kept := by
  unfold recordLine
  (repeat' split) <;> simp [foldl_kept, ↓kept_with, apply_ite State.kept]

@[simp] theorem stopForFont_kept (j : JobId) (f : Nat) (s : State) : (stopForFont j f s).kept = s.kept := by
  unfold stopForFont
  (repeat' split) <;> simp [foldl_kept, ↓kept_with, apply_ite State.kept]

@[simp] theorem stopHeld_kept (j : JobId) (k : Exc) (line words : Nat) (s : State) : (stopHeld j k line words s).kept = s.kept := by
  unfold stopHeld
  (repeat' split) <;> simp [foldl_kept, ↓kept_with, apply_ite State.kept]

@[simp] theorem stopFaulted_kept (j : JobId) (reason : JobReason) (detail : Nat) (s : State) : (stopFaulted j reason detail s).kept = s.kept := by
  unfold stopFaulted
  (repeat' split) <;> simp [foldl_kept, ↓kept_with, apply_ite State.kept]

@[simp] theorem flagRaised_kept (j : JobId) (e : ExcSet) (s : State) : (flagRaised j e s).kept = s.kept := by
  unfold flagRaised
  (repeat' split) <;> simp [foldl_kept, ↓kept_with, apply_ite State.kept]

@[simp] theorem takeResult_kept (j : JobId) (ctx : Context) (r : Result) (s : State) : (takeResult j ctx r s).kept = s.kept := by
  unfold takeResult
  (repeat' split) <;> simp [foldl_kept, ↓kept_with, apply_ite State.kept]

@[simp] theorem buildOnce_kept (j : JobId) (s : State) : (buildOnce j s).kept = s.kept := by
  unfold buildOnce
  (repeat' split) <;> simp [foldl_kept, ↓kept_with, apply_ite State.kept]

@[simp] theorem takeBuild_kept (s : State) : (takeBuild s).kept = s.kept := by
  unfold takeBuild
  (repeat' split) <;> simp [foldl_kept, ↓kept_with, apply_ite State.kept]

/-! ## JobRequests -/

@[simp] theorem refuse_kept (d : Desk) (type : Byte) (c : ReplyCode) (s : State) : (refuse d type c s).kept = s.kept := by
  unfold refuse
  (repeat' split) <;> simp [foldl_kept, ↓kept_with, apply_ite State.kept]

@[simp] theorem stopSilence_kept (d : Desk) (s : State) : (stopSilence d s).kept = s.kept := by
  unfold stopSilence
  (repeat' split) <;> simp [foldl_kept, ↓kept_with, apply_ite State.kept]

@[simp] theorem requestOpen_kept (d : Desk) (payload : List Byte) (s : State) : (requestOpen d payload s).kept = s.kept := by
  unfold requestOpen
  (repeat' split) <;> simp [foldl_kept, ↓kept_with, apply_ite State.kept]

@[simp] theorem textAbandons_kept (d : Desk) (j : JobId) (why : JobReason) (c : ReplyCode) (s : State) : (textAbandons d j why c s).kept = s.kept := by
  unfold textAbandons
  (repeat' split) <;> simp [foldl_kept, ↓kept_with, apply_ite State.kept]

@[simp] theorem closeJob_kept (d : Desk) (j : JobId) (s : State) : (closeJob d j s).kept = s.kept := by
  unfold closeJob
  (repeat' split) <;> simp [foldl_kept, ↓kept_with, apply_ite State.kept]

@[simp] theorem requestClose_kept (d : Desk) (payload : List Byte) (s : State) : (requestClose d payload s).kept = s.kept := by
  unfold requestClose
  (repeat' split) <;> simp [foldl_kept, ↓kept_with, apply_ite State.kept]

@[simp] theorem requestCancel_kept (d : Desk) (payload : List Byte) (s : State) : (requestCancel d payload s).kept = s.kept := by
  unfold requestCancel
  (repeat' split) <;> simp [foldl_kept, ↓kept_with, apply_ite State.kept]

@[simp] theorem decideJob_kept (d : Desk) (j : JobId) (a : Action) (s : State) : (decideJob d j a s).kept = s.kept := by
  unfold decideJob
  (repeat' split) <;> simp [foldl_kept, ↓kept_with, apply_ite State.kept]

@[simp] theorem requestDecide_kept (d : Desk) (payload : List Byte) (s : State) : (requestDecide d payload s).kept = s.kept := by
  unfold requestDecide
  (repeat' split) <;> simp [foldl_kept, ↓kept_with, apply_ite State.kept]

@[simp] theorem releaseJob_kept (j : JobId) (s : State) : (releaseJob j s).kept = s.kept := by
  unfold releaseJob
  (repeat' split) <;> simp [foldl_kept, ↓kept_with, apply_ite State.kept]

@[simp] theorem requestRelease_kept (d : Desk) (payload : List Byte) (s : State) : (requestRelease d payload s).kept = s.kept := by
  unfold requestRelease
  (repeat' split) <;> simp [foldl_kept, ↓kept_with, apply_ite State.kept]

@[simp] theorem requestTest_kept (d : Desk) (payload : List Byte) (s : State) : (requestTest d payload s).kept = s.kept := by
  unfold requestTest
  (repeat' split) <;> simp [foldl_kept, ↓kept_with, apply_ite State.kept]

@[simp] theorem requestQueryJob_kept (d : Desk) (payload : List Byte) (s : State) : (requestQueryJob d payload s).kept = s.kept := by
  unfold requestQueryJob
  (repeat' split) <;> simp [foldl_kept, ↓kept_with, apply_ite State.kept]

/-! ## MachineRequests -/

@[simp] theorem requestProbe_kept (d : Desk) (payload : List Byte) (s : State) : (requestProbe d payload s).kept = s.kept := by
  unfold requestProbe
  (repeat' split) <;> simp [foldl_kept, ↓kept_with, apply_ite State.kept]

@[simp] theorem requestQueryMachine_kept (d : Desk) (payload : List Byte) (s : State) : (requestQueryMachine d payload s).kept = s.kept := by
  unfold requestQueryMachine
  (repeat' split) <;> simp [foldl_kept, ↓kept_with, apply_ite State.kept]

@[simp] theorem addReply_kept (d : Desk) (replaced : Byte) (s : State) : (addReply d replaced s).kept = s.kept := by
  unfold addReply
  (repeat' split) <;> simp [foldl_kept, ↓kept_with, apply_ite State.kept]

@[simp] theorem requestDictLookup_kept (d : Desk) (payload : List Byte) (s : State) : (requestDictLookup d payload s).kept = s.kept := by
  unfold requestDictLookup
  (repeat' split) <;> simp [foldl_kept, ↓kept_with, apply_ite State.kept]

@[simp] theorem takeTrim_kept (d : Desk) (t : Trims) (v : Int) (s : State) : (takeTrim d t v s).kept = s.kept := by
  unfold takeTrim
  (repeat' split) <;> simp [foldl_kept, ↓kept_with, apply_ite State.kept]

@[simp] theorem writeLensTrim_kept (d : Desk) (index : Nat) (v : Int) (s : State) : (writeLensTrim d index v s).kept = s.kept := by
  unfold writeLensTrim
  (repeat' split) <;> simp [foldl_kept, ↓kept_with, apply_ite State.kept]

@[simp] theorem writeBaselineTrim_kept (d : Desk) (index : Nat) (v : Int) (s : State) : (writeBaselineTrim d index v s).kept = s.kept := by
  unfold writeBaselineTrim
  (repeat' split) <;> simp [foldl_kept, ↓kept_with, apply_ite State.kept]

@[simp] theorem writeExposureBase_kept (d : Desk) (index : Nat) (v : Int) (s : State) : (writeExposureBase d index v s).kept = s.kept := by
  unfold writeExposureBase
  (repeat' split) <;> simp [foldl_kept, ↓kept_with, apply_ite State.kept]

@[simp] theorem requestTrimWrite_kept (d : Desk) (payload : List Byte) (s : State) : (requestTrimWrite d payload s).kept = s.kept := by
  unfold requestTrimWrite
  (repeat' split) <;> simp [foldl_kept, ↓kept_with, apply_ite State.kept]

@[simp] theorem requestNoticeMask_kept (d : Desk) (payload : List Byte) (s : State) : (requestNoticeMask d payload s).kept = s.kept := by
  unfold requestNoticeMask
  (repeat' split) <;> simp [foldl_kept, ↓kept_with, apply_ite State.kept]

@[simp] theorem askCut_kept (s : State) : (askCut s).kept = s.kept := by
  unfold askCut
  (repeat' split) <;> simp [foldl_kept, ↓kept_with, apply_ite State.kept]

@[simp] theorem requestCut_kept (d : Desk) (payload : List Byte) (s : State) : (requestCut d payload s).kept = s.kept := by
  unfold requestCut
  (repeat' split) <;> simp [foldl_kept, ↓kept_with, apply_ite State.kept]

@[simp] theorem requestProofConfig_kept (d : Desk) (payload : List Byte) (s : State) : (requestProofConfig d payload s).kept = s.kept := by
  unfold requestProofConfig
  (repeat' split) <;> simp [foldl_kept, ↓kept_with, apply_ite State.kept]

@[simp] theorem enableProof_kept (s : State) : (enableProof s).kept = s.kept := by
  unfold enableProof
  (repeat' split) <;> simp [foldl_kept, ↓kept_with, apply_ite State.kept]

@[simp] theorem disableProof_kept (s : State) : (disableProof s).kept = s.kept := by
  unfold disableProof
  (repeat' split) <;> simp [foldl_kept, ↓kept_with, apply_ite State.kept]

@[simp] theorem requestProofEnable_kept (d : Desk) (payload : List Byte) (s : State) : (requestProofEnable d payload s).kept = s.kept := by
  unfold requestProofEnable
  (repeat' split) <;> simp [foldl_kept, ↓kept_with, apply_ite State.kept]

@[simp] theorem resetLink_kept (d : Desk) (s : State) : (resetLink d s).kept = s.kept := by
  unfold resetLink
  (repeat' split) <;> simp [foldl_kept, ↓kept_with, apply_ite State.kept]

@[simp] theorem requestLinkReset_kept (d : Desk) (payload : List Byte) (s : State) : (requestLinkReset d payload s).kept = s.kept := by
  unfold requestLinkReset
  (repeat' split) <;> simp [foldl_kept, ↓kept_with, apply_ite State.kept]

/-! ## Receiver -/

@[simp] theorem countBad_kept (d : Desk) (s : State) : (countBad d s).kept = s.kept := by
  unfold countBad
  (repeat' split) <;> simp [foldl_kept, ↓kept_with, apply_ite State.kept]

@[simp] theorem restartSilence_kept (d : Desk) (s : State) : (restartSilence d s).kept = s.kept := by
  unfold restartSilence
  (repeat' split) <;> simp [foldl_kept, ↓kept_with, apply_ite State.kept]

@[simp] theorem setReceiver_kept (d : Desk) (r : Receiver) (s : State) : (setReceiver d r s).kept = s.kept := by
  unfold setReceiver
  (repeat' split) <;> simp [foldl_kept, ↓kept_with, apply_ite State.kept]

/-! ## LinkCommands -/

@[simp] theorem frameSent_kept (d : Desk) (s : State) : (frameSent d s).kept = s.kept := by
  unfold frameSent
  (repeat' split) <;> simp [foldl_kept, ↓kept_with, apply_ite State.kept]

@[simp] theorem breakLink_kept (d : Desk) (s : State) : (breakLink d s).kept = s.kept := by
  unfold breakLink
  (repeat' split) <;> simp [foldl_kept, ↓kept_with, apply_ite State.kept]

@[simp] theorem holdExpired_kept (d : Desk) (s : State) : (holdExpired d s).kept = s.kept := by
  unfold holdExpired
  (repeat' split) <;> simp [foldl_kept, ↓kept_with, apply_ite State.kept]

@[simp] theorem silenceExpired_kept (d : Desk) (s : State) : (silenceExpired d s).kept = s.kept := by
  unfold silenceExpired
  (repeat' split) <;> simp [foldl_kept, ↓kept_with, apply_ite State.kept]

/-! ## EngineCommands -/

@[simp] theorem heldExpired_kept (j : JobId) (s : State) : (heldExpired j s).kept = s.kept := by
  unfold heldExpired
  (repeat' split) <;> simp [foldl_kept, ↓kept_with, apply_ite State.kept]

/-! ## MechanismCommands -/

@[simp] theorem turretConfirmed_kept (p : Pos) (s : State) : (turretConfirmed p s).kept = s.kept := by
  unfold turretConfirmed
  (repeat' split) <;> simp [foldl_kept, ↓kept_with, apply_ite State.kept]

@[simp] theorem lensConfirmed_kept (l : Lens) (s : State) : (lensConfirmed l s).kept = s.kept := by
  unfold lensConfirmed
  (repeat' split) <;> simp [foldl_kept, ↓kept_with, apply_ite State.kept]

@[simp] theorem lensHomed_kept (s : State) : (lensHomed s).kept = s.kept := by
  unfold lensHomed
  (repeat' split) <;> simp [foldl_kept, ↓kept_with, apply_ite State.kept]

@[simp] theorem confirmed_kept (k : ConfirmKind) (s : State) : (confirmed k s).kept = s.kept := by
  unfold confirmed
  (repeat' split) <;> simp [foldl_kept, ↓kept_with, apply_ite State.kept]

@[simp] theorem confirmExpired_kept (s : State) : (confirmExpired s).kept = s.kept := by
  unfold confirmExpired
  (repeat' split) <;> simp [foldl_kept, ↓kept_with, apply_ite State.kept]

@[simp] theorem flashDone_kept (r : Nat) (s : State) : (flashDone r s).kept = s.kept := by
  unfold flashDone
  (repeat' split) <;> simp [foldl_kept, ↓kept_with, apply_ite State.kept]

@[simp] theorem flashExpired_kept (s : State) : (flashExpired s).kept = s.kept := by
  unfold flashExpired
  (repeat' split) <;> simp [foldl_kept, ↓kept_with, apply_ite State.kept]

@[simp] theorem stripRemoved_kept (p : Pos) (s : State) : (stripRemoved p s).kept = s.kept := by
  unfold stripRemoved
  (repeat' split) <;> simp [foldl_kept, ↓kept_with, apply_ite State.kept]

@[simp] theorem takeStripIn_kept (p : Pos) (c : Byte) (s : State) : (takeStripIn p c s).kept = s.kept := by
  unfold takeStripIn
  (repeat' split) <;> simp [foldl_kept, ↓kept_with, apply_ite State.kept]

@[simp] theorem stripFitted_kept (p : Pos) (c : Byte) (s : State) : (stripFitted p c s).kept = s.kept := by
  unfold stripFitted
  (repeat' split) <;> simp [foldl_kept, ↓kept_with, apply_ite State.kept]

@[simp] theorem takeReading_kept (p : Pos) (code : Option Byte) (s : State) : (takeReading p code s).kept = s.kept := by
  unfold takeReading
  (repeat' split) <;> simp [foldl_kept, ↓kept_with, apply_ite State.kept]

@[simp] theorem scanOn_kept (p : Pos) (s : State) : (scanOn p s).kept = s.kept := by
  unfold scanOn
  (repeat' split) <;> simp [foldl_kept, ↓kept_with, apply_ite State.kept]

@[simp] theorem stripRead_kept (p : Pos) (code : Option Byte) (s : State) : (stripRead p code s).kept = s.kept := by
  unfold stripRead
  (repeat' split) <;> simp [foldl_kept, ↓kept_with, apply_ite State.kept]

@[simp] theorem lampChanged_kept (s : State) : (lampChanged s).kept = s.kept := by
  unfold lampChanged
  (repeat' split) <;> simp [foldl_kept, ↓kept_with, apply_ite State.kept]

@[simp] theorem restart_kept (why : StopReason) (s : State) : (restart why s).kept = s.kept := by
  unfold restart
  (repeat' split) <;> simp [foldl_kept, ↓kept_with, apply_ite State.kept]

@[simp] theorem clearFault_kept (s : State) : (clearFault s).kept = s.kept := by
  unfold clearFault
  (repeat' split) <;> simp [foldl_kept, ↓kept_with, apply_ite State.kept]

/-! ## FilmCommands -/

@[simp] theorem moveEnded_kept (s : State) : (moveEnded s).kept = s.kept := by
  unfold moveEnded
  (repeat' split) <;> simp [foldl_kept, ↓kept_with, apply_ite State.kept]

@[simp] theorem moveDone_kept (s : State) : (moveDone s).kept = s.kept := by
  unfold moveDone
  (repeat' split) <;> simp [foldl_kept, ↓kept_with, apply_ite State.kept]

@[simp] theorem cutEnded_kept (s : State) : (cutEnded s).kept = s.kept := by
  unfold cutEnded
  (repeat' split) <;> simp [foldl_kept, ↓kept_with, apply_ite State.kept]

@[simp] theorem cutDone_kept (s : State) : (cutDone s).kept = s.kept := by
  unfold cutDone
  (repeat' split) <;> simp [foldl_kept, ↓kept_with, apply_ite State.kept]

@[simp] theorem cutFailed_kept (why : CutPurpose) (s : State) : (cutFailed why s).kept = s.kept := by
  unfold cutFailed
  (repeat' split) <;> simp [foldl_kept, ↓kept_with, apply_ite State.kept]

@[simp] theorem cutExpired_kept (s : State) : (cutExpired s).kept = s.kept := by
  unfold cutExpired
  (repeat' split) <;> simp [foldl_kept, ↓kept_with, apply_ite State.kept]

@[simp] theorem afterSwitch_kept (was : Bool) (s : State) : (afterSwitch was s).kept = s.kept := by
  unfold afterSwitch
  (repeat' split) <;> simp [foldl_kept, ↓kept_with, apply_ite State.kept]

@[simp] theorem switchEvent_kept (f : Film → Film) (s : State) : (switchEvent f s).kept = s.kept := by
  unfold switchEvent
  (repeat' split) <;> simp [foldl_kept, ↓kept_with, apply_ite State.kept]

@[simp] theorem unloadFilm_kept (s : State) : (unloadFilm s).kept = s.kept := by
  unfold unloadFilm
  (repeat' split) <;> simp [foldl_kept, ↓kept_with, apply_ite State.kept]

@[simp] theorem magazineOut_kept (s : State) : (magazineOut s).kept = s.kept := by
  unfold magazineOut
  (repeat' split) <;> simp [foldl_kept, ↓kept_with, apply_ite State.kept]

@[simp] theorem loadFilm_kept (feet : Nat) (s : State) : (loadFilm feet s).kept = s.kept := by
  unfold loadFilm
  (repeat' split) <;> simp [foldl_kept, ↓kept_with, apply_ite State.kept]

@[simp] theorem magazineLoaded_kept (feet : Nat) (s : State) : (magazineLoaded feet s).kept = s.kept := by
  unfold magazineLoaded
  (repeat' split) <;> simp [foldl_kept, ↓kept_with, apply_ite State.kept]

/-! ## ProofCommands -/

@[simp] theorem printerReady_kept (s : State) : (printerReady s).kept = s.kept := by
  unfold printerReady
  (repeat' split) <;> simp [foldl_kept, ↓kept_with, apply_ite State.kept]

@[simp] theorem printerStops_kept (p : Printer) (s : State) : (printerStops p s).kept = s.kept := by
  unfold printerStops
  (repeat' split) <;> simp [foldl_kept, ↓kept_with, apply_ite State.kept]

end Sys2Proof.Machine
end

