-- ==== Sys2Proof/Laws/Jobs.lean ====
section
/-! SUPPORT. The searches of the job records: what each answers, once for all. -/

namespace Sys2Proof.Machine

/-- The first number of a rising list that has a property: it has it, and no lower number of the list does. -/
theorem find_finRange {n : Nat} (p : Fin n → Bool) (j : Fin n) :
    (List.finRange n).find? p = some j ↔ p j = true ∧ ∀ k : Fin n, k < j → p k = false := by
  rw [List.find?_eq_some_iff_getElem]
  constructor
  · rintro ⟨h, i, hi, e, hk⟩
    refine ⟨h, fun k hkj => ?_⟩
    have hij : j.val = i := by rw [← e]; simp
    have := hk k.val (by rw [← hij]; exact hkj)
    simpa using this
  · rintro ⟨h, hk⟩
    refine ⟨h, j.val, by simp, by simp, fun i hi => ?_⟩
    simpa using hk ⟨i, by omega⟩ (by exact hi)

theorem find_finRange_none {n : Nat} (p : Fin n → Bool) : (List.finRange n).find? p = none ↔ ∀ k : Fin n, p k = false := by
  simp

/-- The RECEIVING job found for a desk. -/
theorem receivingJob_some (d : Desk) (j : JobId) (s : State) : receivingJob d s = some j ↔ Receiving d j s := by
  simp only [receivingJob, allJobs, find_finRange, Receiving, decide_eq_true_eq, decide_eq_false_iff_not, and_assoc]

theorem receivingJob_none (d : Desk) (s : State) : receivingJob d s = none ↔ NotReceiving d s := by
  simp only [receivingJob, allJobs, find_finRange_none, NotReceiving, decide_eq_false_iff_not]

/-- The FREE record found. -/
theorem freeRecord_some (j : JobId) (s : State) : freeRecord s = some j ↔ LowestFree j s := by
  simp only [freeRecord, allJobs, find_finRange, LowestFree, decide_eq_true_eq, decide_eq_false_iff_not, ne_eq]

theorem freeRecord_none (s : State) : freeRecord s = none ↔ ∀ k : JobId, s.jobs[k].state ≠ .free := by
  simp only [freeRecord, allJobs, find_finRange_none, decide_eq_false_iff_not, ne_eq]

/-- The COMPOSING job found. -/
theorem composingJob_some (j : JobId) (s : State) : composingJob s = some j ↔ Composing j s := by
  simp only [composingJob, allJobs, find_finRange, Composing, decide_eq_true_eq, decide_eq_false_iff_not, ne_eq]

theorem composingJob_none (s : State) : composingJob s = none ↔ ∀ k : JobId, s.jobs[k].state ≠ .composing := by
  simp only [composingJob, allJobs, find_finRange_none, decide_eq_false_iff_not, ne_eq]

/-- The job number a byte names. -/
theorem jobOf_some (b : Byte) (j : JobId) : jobOf b = some j ↔ b.toNat = j.val := by
  unfold jobOf
  constructor
  · intro h
    split at h
    · cases h; rfl
    · cases h
  · intro h
    rw [dif_pos (by omega)]
    exact congrArg some (Fin.ext h)

theorem jobOf_none (b : Byte) : jobOf b = none ↔ 32 ≤ b.toNat := by
  unfold jobOf
  split <;> simp <;> omega

/-- The job that a request names (R27). -/
theorem matchJob_some (d : Desk) (n : Byte) (t : BitVec 16) (j : JobId) (s : State) :
    matchJob d n t s = some j ↔ Matches d n t j s := by
  unfold matchJob Matches
  cases h : jobOf n with
  | none =>
    have := (jobOf_none n).1 h
    simp only [reduceCtorEq, false_iff]
    rintro ⟨e, -⟩
    omega
  | some k =>
    have hk := (jobOf_some n k).1 h
    constructor
    · intro e
      dsimp only at e
      split at e
      · next c => cases e; exact ⟨hk, c⟩
      · cases e
    · rintro ⟨e, c⟩
      have : k = j := Fin.ext (hk.symm.trans e)
      subst this
      dsimp only
      rw [if_pos c]

theorem matchJob_none (d : Desk) (n : Byte) (t : BitVec 16) (s : State) : matchJob d n t s = none ↔ NoMatch d n t s := by
  constructor
  · intro h j hj
    rw [(matchJob_some d n t j s).2 hj] at h
    cases h
  · intro h
    cases e : matchJob d n t s with
    | none => rfl
    | some j => exact absurd ((matchJob_some d n t j s).1 e) (h j)

end Sys2Proof.Machine
end

