-- ==== Sys2Proof/Laws/Effects.lean ====
section
/-! SUPPORT. What selection, the completion and freeing checks, the pins, a transmitter, DIR-WRITE's checks and the scan
do: for each operation one lemma that says all it can do, and the fields it leaves alone. -/

namespace Sys2Proof.Machine

/-! ## Selection (R58, R59) -/

/-- Selection leaves the state as it stands, or selects the next job while none is COMPOSING. -/
theorem trySelect_cases (s : State) :
    trySelect s = s ∨ ∃ j, (∀ k : JobId, s.jobs[k].state ≠ .composing) ∧ nextJob s = some j ∧ trySelect s = selectJob j s := by
  unfold trySelect
  split
  · exact .inl rfl
  · rename_i hc
    split
    · rename_i j hn
      exact .inr ⟨j, (composingJob_none s).1 hc, hn, rfl⟩
    · exact .inl rfl

/-- The fields that neither selection nor the checks of jobs write. -/
def State.outside (s : State) :
    MountTable × List Record × Imaging × Film × ProofChannel × List MechCommand :=
  (s.mount, s.buffer, s.imaging, s.film, s.proof, s.port)

@[simp] theorem selectJob_outside (j : JobId) (s : State) : (selectJob j s).outside = s.outside := rfl

@[simp] theorem trySelect_outside (s : State) : (trySelect s).outside = s.outside := by
  rcases trySelect_cases s with h | ⟨j, -, -, h⟩ <;> simp [h]

/-- The job selected is COMPOSING with its saved context; every other record stays. -/
theorem selectJob_jobs (j : JobId) (s : State) :
    (selectJob j s).jobs =
      put s.jobs j { s.jobs[j] with state := .composing, saved := some (s.jobs[j].saved.getD (freshContext s)) } := rfl

/-! ## Completion and freeing (R71, R75) -/

@[simp] theorem freeJob_outside (j : JobId) (s : State) : (freeJob j s).outside = s.outside := rfl

@[simp] theorem freeJob_jobs (j : JobId) (s : State) : (freeJob j s).jobs = put s.jobs j Job.free := rfl

/-- The check of a job leaves the state as it stands, frees the record, with a notice before it or without, or has a proof
pass await release. -/
theorem checkJob_cases (j : JobId) (s : State) :
    checkJob j s = s ∨ checkJob j s = freeJob j s ∨
    (∃ k n, checkJob j s = freeJob j (s.notice s.jobs[j].owner k j n)) ∨
    checkJob j s = (s.notice s.jobs[j].owner .proofDone j s.jobs[j].proofed).modJob j
      fun q => { q with state := .awaitRelease } := by
  unfold checkJob
  dsimp only
  split
  · split
    · split
      · exact .inr (.inr (.inl ⟨_, _, rfl⟩))
      · split
        · exact .inr (.inr (.inr rfl))
        · exact .inr (.inr (.inl ⟨_, _, rfl⟩))
    · exact .inl rfl
  · split
    · exact .inl rfl
    · exact .inr (.inl rfl)
  · split
    · exact .inl rfl
    · exact .inr (.inl rfl)
  · exact .inl rfl

@[simp] theorem checkJob_outside (j : JobId) (s : State) : (checkJob j s).outside = s.outside := by
  rcases checkJob_cases j s with h | h | ⟨_, _, h⟩ | h <;> rw [h] <;> rfl

@[simp] theorem checkJob_engine (j : JobId) (s : State) : (checkJob j s).engine = s.engine := by
  rcases checkJob_cases j s with h | h | ⟨_, _, h⟩ | h <;> rw [h] <;> rfl

/-- The check of a job leaves every other job's record alone. -/
theorem checkJob_other (j k : JobId) (s : State) (h : j ≠ k) : (checkJob j s).jobs[k] = s.jobs[k] := by
  rcases checkJob_cases j s with e | e | ⟨_, _, e⟩ | e
  · rw [e]
  · rw [e]
    exact put_other _ _ _ _ h
  · rw [e]
    exact put_other _ _ _ _ h
  · rw [e]
    exact put_other _ _ _ _ h

@[simp] theorem checkJobs_outside (js : List JobId) (s : State) : (checkJobs js s).outside = s.outside := by
  unfold checkJobs
  induction js generalizing s with
  | nil => rfl
  | cons j r ih => exact (ih (checkJob j s)).trans (checkJob_outside j s)

/-- The checks of several jobs leave alone the record of a job that is not among them. -/
theorem checkJobs_other (js : List JobId) (k : JobId) (s : State) (h : k ∉ js) : (checkJobs js s).jobs[k] = s.jobs[k] := by
  unfold checkJobs
  induction js generalizing s with
  | nil => rfl
  | cons j r ih =>
    obtain ⟨hj, hr⟩ := not_or.1 fun e => h (List.mem_cons.2 e)
    exact (ih (checkJob j s) hr).trans (checkJob_other j k s (Ne.symm hj))

/-! ## Pins (R91, R137) -/

/-- A record's positions are those of its elements. -/
theorem mem_positions (r : Record) (p : Pos) : p ∈ r.positions ↔ ∃ e ∈ r.elements, e.pos = some p := by
  have hall : p ∈ allPositions := by revert p; decide
  simp [Record.positions, hall]

/-- A pin taken lowers the count of its position alone, and no further than 0. -/
theorem unpin_pos (p q : Pos) (s : State) :
    (unpin p s).mount.pos[q] = { s.mount.pos[q] with pins := if p = q then s.mount.pos[q].pins - 1 else s.mount.pos[q].pins } := by
  unfold unpin
  dsimp only
  split
  · rename_i h
    split
    · rename_i e
      subst e
      have hn : s.mount.pos[p].pins - 1 = s.mount.pos[p].pins := by
        have h : s.mount.pos[p].pins = 0 := h
        omega
      show s.mount.pos[p] = { s.mount.pos[p] with pins := s.mount.pos[p].pins - 1 }
      rw [hn]
    · rfl
  · have hp : (s.modPos p fun x => { x with pins := s.mount.pos[p].pins - 1 }).mount.pos[q] =
        { s.mount.pos[q] with pins := if p = q then s.mount.pos[q].pins - 1 else s.mount.pos[q].pins } := by
      by_cases e : p = q
      · subst e
        rw [if_pos rfl]
        exact put_same _ _ _
      · rw [if_neg e]
        exact put_other _ _ _ _ e
    split <;> exact hp

/-- A pin added raises the count of its position alone. -/
theorem pin_pos (p q : Pos) (s : State) :
    (pin p s).mount.pos[q] = { s.mount.pos[q] with pins := if p = q then s.mount.pos[q].pins + 1 else s.mount.pos[q].pins } := by
  have hp : (s.modPos p fun x => { x with pins := s.mount.pos[p].pins + 1 }).mount.pos[q] =
      { s.mount.pos[q] with pins := if p = q then s.mount.pos[q].pins + 1 else s.mount.pos[q].pins } := by
    by_cases e : p = q
    · subst e
      rw [if_pos rfl]
      exact put_same _ _ _
    · rw [if_neg e]
      exact put_other _ _ _ _ e
  unfold pin
  dsimp only
  split <;> exact hp

/-! ## The transmitter (R24) -/

/-- A link goes on as it is while it sends or has nothing to send, or begins the flow-control frame, or the queue's head. -/
theorem Link.kick_cases (l : Link) :
    ((l.sending.isSome = true ∨ l.slot = none ∧ l.queue = []) ∧ l.kick = l) ∨
    (∃ f, l.sending = none ∧ l.slot = some f ∧ l.kick = { l with slot := none, sending := some f.frame.bytes }) ∨
    (∃ f r, l.sending = none ∧ l.slot = none ∧ l.queue = f :: r ∧
      l.kick = { l with queue := r, sending := some f.bytes }) := by
  rcases hs : l.sending with _ | x
  · rcases hf : l.slot with _ | f
    · rcases hq : l.queue with _ | ⟨f, r⟩
      · exact .inl ⟨.inr ⟨rfl, rfl⟩, by simp [Link.kick, hs, hf, hq]⟩
      · exact .inr (.inr ⟨f, r, rfl, rfl, rfl, by simp [Link.kick, hs, hf, hq]⟩)
    · exact .inr (.inl ⟨f, rfl, rfl, by simp [Link.kick, hs, hf]⟩)
  · exact .inl ⟨.inl rfl, by simp [Link.kick, hs]⟩

/-! ## DIR-WRITE and the scan (R83, R160) -/

/-- DIR-WRITE passes its checks: the fields are in range, no other font holds the strip code, and number `n` is not a
MOUNTED font's. -/
theorem dirCheck_none (s : State) (n : Fin 64) (x : Descriptor) :
    dirCheck s n x = none ↔ x.inRange = true ∧ stripTaken s n x = false ∧ mountedFont s n = false := by
  unfold dirCheck
  cases x.inRange <;> cases stripTaken s n x <;> cases mountedFont s n <;> simp

/-- A STRIP-CODE is ignored, ends the scan where its reading stops the sequencer, or goes on to the next position. -/
theorem stripRead_cases (p : Pos) (c : Option Byte) (s : State) :
    (¬ (s.imaging.move = some .readStrip ∧ s.imaging.curPos = some p) ∧ stripRead p c s = s) ∨
    ∃ t, t = takeReading p c (endMove s) ∧ s.imaging.move = some .readStrip ∧ s.imaging.curPos = some p ∧
      ((t.imaging.st ≠ .starting ∧ stripRead p c s = settle t.store.freeCount t) ∨
        (t.imaging.st = .starting ∧ stripRead p c s = settle t.store.freeCount (scanOn p t))) := by
  unfold stripRead
  by_cases h : s.imaging.move = some .readStrip ∧ s.imaging.curPos = some p
  · refine .inr ⟨_, rfl, h.1, h.2, ?_⟩
    rw [if_pos h]
    by_cases h2 : (takeReading p c (endMove s)).imaging.st = .starting
    · exact .inr ⟨h2, by simp [h2]⟩
    · exact .inl ⟨h2, by simp [h2]⟩
  · exact .inl ⟨h, by rw [if_neg h]⟩

end Sys2Proof.Machine
end

