-- ==== Sys2Proof/Laws/Memory.lean ====
section
/-! SUPPORT. The cells kept sparsely: a read after a write, and the canonical form that every write keeps. The galley
store's bytes and its next-links are both held so. -/

namespace Sys2Proof.Machine

variable {α : Type} [DecidableEq α] (dflt : Nat → α)

/-- What canonical form says of a list with a first entry. -/
theorem sparseWf_cons (a : Nat) (v : α) (r : List (Nat × α)) :
    sparseWf dflt ((a, v) :: r) = true ↔ v ≠ dflt a ∧ (∀ e ∈ r, a < e.1) ∧ sparseWf dflt r = true := by
  simp [sparseWf, and_assoc]

omit [DecidableEq α] in
/-- An address below every listed one reads as an unlisted address does. -/
theorem sparseRead_below : ∀ (m : List (Nat × α)) (k : Nat), (∀ e ∈ m, k < e.1) → sparseRead dflt m k = dflt k
  | [], _, _ => rfl
  | (a, v) :: r, k, h => by
    have : k < a := h (a, v) (by simp)
    simp [sparseRead, this]

/-- The address written reads as the value written. -/
theorem sparseRead_write_same :
    ∀ (m : List (Nat × α)) (k : Nat) (v : α), sparseWf dflt m = true → sparseRead dflt (sparseWrite dflt m k v) k = v
  | [], k, v, _ => by by_cases hv : v = dflt k <;> simp [sparseWrite, sparseRead, hv]
  | (a, w) :: r, k, v, h => by
    obtain ⟨_, hlt, hr⟩ := (sparseWf_cons dflt a w r).1 h
    rcases Nat.lt_trichotomy k a with hk | hk | hk
    · by_cases hv : v = dflt k <;> simp [sparseWrite, sparseRead, hk, hv]
    · subst hk
      by_cases hv : v = dflt k
      · simp [sparseWrite, hv, sparseRead_below dflt r k hlt]
      · simp [sparseWrite, sparseRead, hv]
    · have h1 : ¬ k < a := by omega
      have h2 : a ≠ k := by omega
      simp [sparseWrite, sparseRead, h1, h2, sparseRead_write_same r k v hr]

/-- Every other address reads as before the write. -/
theorem sparseRead_write_other :
    ∀ (m : List (Nat × α)) (k i : Nat) (v : α), sparseWf dflt m = true → i ≠ k →
      sparseRead dflt (sparseWrite dflt m k v) i = sparseRead dflt m i
  | [], k, i, v, _, hi => by
    have h1 : k ≠ i := Ne.symm hi
    by_cases hv : v = dflt k <;> simp [sparseWrite, sparseRead, hv, h1]
  | (a, w) :: r, k, i, v, h, hi => by
    obtain ⟨_, hlt, hr⟩ := (sparseWf_cons dflt a w r).1 h
    have hki : k ≠ i := Ne.symm hi
    rcases Nat.lt_trichotomy k a with hk | hk | hk
    · by_cases hv : v = dflt k
      · simp [sparseWrite, hk, hv]
      · by_cases h1 : i < k
        · have : i < a := by omega
          simp [sparseWrite, sparseRead, hk, hv, h1, this]
        · simp [sparseWrite, sparseRead, hk, hv, h1, hki]
    · subst hk
      by_cases h1 : i < k
      · have hb : ∀ e ∈ r, i < e.1 := fun e he => Nat.lt_trans h1 (hlt e he)
        by_cases hv : v = dflt k <;> simp [sparseWrite, sparseRead, hv, h1, sparseRead_below dflt r i hb]
      · by_cases hv : v = dflt k <;> simp [sparseWrite, sparseRead, hv, h1, hki]
    · have h1 : ¬ k < a := by omega
      have h2 : a ≠ k := by omega
      by_cases h3 : i < a
      · simp [sparseWrite, sparseRead, h1, h2, h3]
      · by_cases h4 : a = i
        · subst h4
          simp only [sparseWrite, sparseRead, h1, h2, if_false, if_true]
        · simp [sparseWrite, sparseRead, h1, h2, h3, h4, sparseRead_write_other r k i v hr hi]

/-- The addresses listed after a write are those before it, or the address written. -/
theorem mem_sparseWrite :
    ∀ (m : List (Nat × α)) (k : Nat) (v : α) (e : Nat × α), e ∈ sparseWrite dflt m k v → e = (k, v) ∨ e ∈ m
  | [], k, v, e, he => by
    by_cases hv : v = dflt k <;> simp_all [sparseWrite]
  | (a, w) :: r, k, v, e, he => by
    rcases Nat.lt_trichotomy k a with hk | hk | hk
    · by_cases hv : v = dflt k <;> simp_all [sparseWrite]
    · subst hk
      by_cases hv : v = dflt k <;> simp [sparseWrite, hv] at he ⊢ <;> tauto
    · have h1 : ¬ k < a := by omega
      have h2 : a ≠ k := by omega
      simp only [sparseWrite, h1, h2, if_false, List.mem_cons] at he ⊢
      rcases he with he | he
      · exact .inr (.inl he)
      · rcases mem_sparseWrite r k v e he with h | h
        · exact .inl h
        · exact .inr (.inr h)

/-- A write keeps the canonical form. -/
theorem sparseWf_write :
    ∀ (m : List (Nat × α)) (k : Nat) (v : α), sparseWf dflt m = true → sparseWf dflt (sparseWrite dflt m k v) = true
  | [], k, v, _ => by by_cases hv : v = dflt k <;> simp [sparseWrite, sparseWf, hv]
  | (a, w) :: r, k, v, h => by
    obtain ⟨hw, hlt, hr⟩ := (sparseWf_cons dflt a w r).1 h
    rcases Nat.lt_trichotomy k a with hk | hk | hk
    · by_cases hv : v = dflt k
      · simpa [sparseWrite, hk, hv] using h
      · simp only [sparseWrite, hk, hv, if_true, if_false]
        refine (sparseWf_cons dflt _ _ _).2 ⟨hv, ?_, h⟩
        intro e he
        rcases List.mem_cons.1 he with he | he
        · simpa [he] using hk
        · exact Nat.lt_trans hk (hlt e he)
    · subst hk
      by_cases hv : v = dflt k
      · simpa [sparseWrite, hv] using hr
      · simp only [sparseWrite, Nat.lt_irrefl, hv, if_true, if_false]
        exact (sparseWf_cons dflt _ _ _).2 ⟨hv, hlt, hr⟩
    · have h1 : ¬ k < a := by omega
      have h2 : a ≠ k := by omega
      simp only [sparseWrite, h1, h2, if_false]
      refine (sparseWf_cons dflt _ _ _).2 ⟨hw, ?_, sparseWf_write r k v hr⟩
      intro e he
      rcases mem_sparseWrite dflt r k v e he with he | he
      · simpa [he] using hk
      · exact hlt e he

/-- Two lists in canonical form that read alike everywhere are one list. -/
theorem sparse_ext :
    ∀ (m n : List (Nat × α)), sparseWf dflt m = true → sparseWf dflt n = true →
      (∀ k, sparseRead dflt m k = sparseRead dflt n k) → m = n
  | [], [], _, _, _ => rfl
  | [], (a, v) :: r, _, hn, h => by
    have := h a
    simp [sparseRead] at this
    exact absurd this.symm ((sparseWf_cons dflt a v r).1 hn).1
  | (a, v) :: r, [], hm, _, h => by
    have := h a
    simp [sparseRead] at this
    exact absurd this ((sparseWf_cons dflt a v r).1 hm).1
  | (a, v) :: r, (b, w) :: q, hm, hn, h => by
    obtain ⟨hv, hlt, hr⟩ := (sparseWf_cons dflt a v r).1 hm
    obtain ⟨hw, hlq, hq⟩ := (sparseWf_cons dflt b w q).1 hn
    rcases Nat.lt_trichotomy a b with hab | hab | hab
    · have := h a
      simp [sparseRead, hab] at this
      exact absurd this hv
    · subst hab
      have hvw : v = w := by simpa [sparseRead] using h a
      subst hvw
      have : r = q := by
        refine sparse_ext r q hr hq fun k => ?_
        rcases Nat.lt_trichotomy k a with hk | hk | hk
        · rw [sparseRead_below dflt r k fun e he => Nat.lt_trans hk (hlt e he),
            sparseRead_below dflt q k fun e he => Nat.lt_trans hk (hlq e he)]
        · subst hk
          rw [sparseRead_below dflt r _ hlt, sparseRead_below dflt q _ hlq]
        · have h1 : ¬ k < a := by omega
          have h2 : a ≠ k := by omega
          simpa [sparseRead, h1, h2] using h k
      rw [this]
    · have h1 : ¬ b > a := by omega
      have := h b
      simp [sparseRead, hab] at this
      exact absurd this.symm hw

/-! ## The galley store's bytes -/

theorem Memory.read_write_same (m : List Host.Cell) (a : Nat) (b : Byte) (h : Memory.wf m = true) :
    Memory.read (Memory.write m a b) a = b := sparseRead_write_same _ m a b h

theorem Memory.read_write_other (m : List Host.Cell) (a i : Nat) (b : Byte) (h : Memory.wf m = true) (hi : i ≠ a) :
    Memory.read (Memory.write m a b) i = Memory.read m i := sparseRead_write_other _ m a i b h hi

/-- A write keeps the canonical form of the store's bytes. -/
theorem Memory.wf_write (m : List Host.Cell) (a : Nat) (b : Byte) (h : Memory.wf m = true) :
    Memory.wf (Memory.write m a b) = true := sparseWf_write _ m a b h

/-- The bytes right after reset are in canonical form. -/
theorem Memory.wf_reset : Memory.wf State.reset.store.cells = true := rfl

/-- One byte appended keeps the canonical form of the store's bytes. -/
theorem appendByte_wf (p : Store × Job) (b : Byte) (h : Memory.wf p.1.cells = true) :
    Memory.wf (appendByte p b).1.cells = true := by
  obtain ⟨st, j⟩ := p
  have hset : ∀ (t : Store) (k : Nat) (n : Option Nat), (t.setNext k n).cells = t.cells := fun _ _ _ => rfl
  have halloc : ∀ k t, st.allocate = some (k, t) → t.cells = st.cells := by
    intro k t ht
    unfold Store.allocate at ht
    split at ht
    · cases ht; rfl
    · split at ht
      · cases ht
      · cases ht; rfl
  unfold appendByte
  simp only
  split
  · split
    · exact h
    · rename_i k st1 ha
      refine Memory.wf_write _ _ _ ?_
      split <;> simpa only [hset, halloc k st1 ha] using h
  · split
    · exact h
    · exact Memory.wf_write _ _ _ h

/-- Bytes appended keep the canonical form of the store's bytes. -/
theorem appendBytes_wf : ∀ (bytes : List Byte) (p : Store × Job), Memory.wf p.1.cells = true →
    Memory.wf (bytes.foldl appendByte p).1.cells = true
  | [], _, h => h
  | b :: bs, p, h => appendBytes_wf bs (appendByte p b) (appendByte_wf p b h)

/-- A TEXT frame's append keeps the canonical form of the store's bytes. -/
theorem appendText_wf (j : JobId) (bytes : List Byte) (s : State) (h : Memory.wf s.store.cells = true) :
    Memory.wf (appendText j bytes s).store.cells = true := appendBytes_wf bytes (s.store, s.jobs[j]) h

/-! ## The next-links -/

theorem Store.next_setNext_same (b : Nat) (n : Option Nat) (st : Store) (h : sparseWf startLink st.links = true) :
    (st.setNext b n).next b = n := sparseRead_write_same _ st.links b n h

theorem Store.next_setNext_other (b i : Nat) (n : Option Nat) (st : Store) (h : sparseWf startLink st.links = true)
    (hi : i ≠ b) : (st.setNext b n).next i = st.next i := sparseRead_write_other _ st.links b i n h hi

/-- A next-link set keeps the canonical form of the next-links. -/
theorem Store.setNext_wf (b : Nat) (n : Option Nat) (st : Store) (h : sparseWf startLink st.links = true) :
    sparseWf startLink (st.setNext b n).links = true := sparseWf_write _ st.links b n h

end Sys2Proof.Machine
end

