-- ==== Sys2Proof/Tests/Slice0.lean ====
section
/-! SUPPORT. Our own tests: commands that the well-formedness check refuses, a witness for the hypotheses of every
statement, worked examples of the manual, and small tests of single commands. -/

set_option linter.unusedSimpArgs false
set_option maxRecDepth 4000

namespace Sys2Proof.Tests

open Sys2Proof.Machine

/-! ## Small states -/

theorem allowed_iff (d : Desk) (t : Byte) (s : State) :
    Allowed d t s ↔ ((requestLevel t).any fun l => decide (s.settings.deskLevel[d] ≤ l)) = true := by
  unfold Allowed
  cases requestLevel t <;> simp

def s0 : State := State.reset

/-- Job 0 as a job of desk 0 with tag 5. -/
def job (st : JobState) : Job := { Job.free with state := st, tag := 5 }

/-- Job 0 as given. -/
def withJob (r : Job) : State := s0.modJob 0 fun _ => r

/-- Job 0 of desk 0, with tag 5, in a state. -/
def sJob (st : JobState) : State := withJob (job st)

/-- A RECEIVING job 0 with 32 text bytes in block 0. -/
def sText : State :=
  { withJob { job .receiving with bytes := 32, firstBlock := some 0, lastBlock := some 0 } with
    store := { Store.start with fresh := 1, links := [(0, none)] } }

/-- Link 0 as changed. -/
def sLink (f : Link → Link) : State := s0.modLink 0 f

/-- Sixteen frames, as many as a queue holds. -/
def sixteen : List Frame := List.replicate 16 ⟨0x81, []⟩

/-- The state a command leaves. -/
def after (c : Instr) (s : State) : Option State :=
  match exec c s with
  | .next t => some t
  | _ => none

/-- One place of the state a command leaves. -/
def got {α : Type} (c : Instr) (s : State) (f : State → α) : Option α := (after c s).map f

/-! ## Ill-formed commands are refused by the check -/

theorem test_ill_payload_too_long : (Instr.text 0 (List.replicate 72 0)).wellFormed = false := by decide
theorem test_ill_payload_too_long_with_region :
    (Instr.saveSettings 0 (List.replicate 71 0)).wellFormed = false := by decide
theorem test_ill_payload_too_long_with_type :
    (Instr.dirWriteClear 0 1 (List.replicate 70 0)).wellFormed = false := by decide
theorem test_ill_payload_too_long_with_action :
    (Instr.decideDefault 0 0 0 (List.replicate 68 0)).wellFormed = false := by decide
theorem test_ill_unknown_of_known_type : (Instr.unknownRequest 0 0x10 []).wellFormed = false := by decide
theorem test_ill_bad_frame_empty : (Instr.badFrame 0 []).wellFormed = false := by decide
theorem test_well_formed_longest : (Instr.text 0 (List.replicate 71 0)).wellFormed = true := by decide

/-! ## Witnesses: the hypotheses of the statements, met together -/

theorem test_witness_step :
    ({ s0 with pending := [.clear, .ready] } : State).pending = .clear :: [.ready] := by decide

theorem test_witness_request_unknown :
    (List.replicate 71 (0 : Byte)).length ≤ 71 ∧ (0x19 : Byte).toNat ∉ requestTypes ∧ Takes 3 s0 := by
  simp only [allowed_iff, Takes, Listening, Receiving, NotReceiving, LowestFree, Matches, NoMatch, Composing, BytesCanonical]
  decide

theorem test_witness_request_denied_and_taken :
    frameOf (.cut 1 []) = some (1, ⟨0x36, []⟩) ∧ (Instr.cut 1 []).wellFormed = true ∧ Takes 1 s0 ∧
    (0x36 : Byte).toNat ∈ requestTypes ∧ 0 < s0.settings.deskLevel[1] ∧
    frameOf (.cut 0 []) = some (0, ⟨0x36, []⟩) ∧ Takes 0 s0 ∧ s0.settings.deskLevel[0] ≤ 0 := by
  simp only [allowed_iff, Takes, Listening, Receiving, NotReceiving, LowestFree, Matches, NoMatch, Composing, BytesCanonical]
  decide

theorem test_witness_request_level_three :
    frameOf (.queryMachine 1 []) = some (1, ⟨0x18, []⟩) ∧ Takes 1 s0 ∧ s0.settings.deskLevel[1] ≤ 3 := by
  simp only [allowed_iff, Takes, Listening, Receiving, NotReceiving, LowestFree, Matches, NoMatch, Composing, BytesCanonical]
  decide

theorem test_witness_request_length :
    frameOf (.close 0 [0, 0]) = some (0, ⟨0x12, [0, 0]⟩) ∧ (Instr.close 0 [0, 0]).wellFormed = true ∧ Takes 0 s0 ∧
    Allowed 0 0x12 s0 ∧ fixedLength 0x12 = some 3 ∧ ([0, 0] : List Byte).length ≠ 3 := by
  simp only [allowed_iff, Takes, Listening, Receiving, NotReceiving, LowestFree, Matches, NoMatch, Composing, BytesCanonical]
  decide

theorem test_witness_frame_kept :
    Listening 0 (sLink fun l => { l with queue := sixteen }) ∧
    (sLink fun l => { l with queue := sixteen }).links[0].kept = none ∧
    16 ≤ (sLink fun l => { l with queue := sixteen }).links[0].queue.length := by
  simp only [allowed_iff, Takes, Listening, Receiving, NotReceiving, LowestFree, Matches, NoMatch, Composing, BytesCanonical]
  decide

theorem test_witness_frame_dropped :
    Listening 0 (sLink fun l => { l with kept := some ⟨0x18, []⟩, queue := sixteen }) ∧
    (sLink fun l => { l with kept := some ⟨0x18, []⟩, queue := sixteen }).links[0].kept.isSome = true := by
  simp only [allowed_iff, Takes, Listening, Receiving, NotReceiving, LowestFree, Matches, NoMatch, Composing, BytesCanonical]
  decide

theorem test_witness_kept_taken :
    (sLink fun l => { l with kept := some ⟨0x18, []⟩, queue := sixteen.tail }).links[0].kept = some ⟨0x18, []⟩ ∧
    (sLink fun l => { l with kept := some ⟨0x18, []⟩, queue := sixteen.tail }).links[0].queue.length < 16 ∧
    Allowed 0 0x18 (sLink fun l => { l with kept := some ⟨0x18, []⟩, queue := sixteen.tail }) := by
  simp only [allowed_iff, Takes, Listening, Receiving, NotReceiving, LowestFree, Matches, NoMatch, Composing, BytesCanonical]
  decide

theorem test_witness_bad_frames :
    Listening 0 s0 ∧ (0 : Byte).toNat = 0 ∧ 72 < (73 : Byte).toNat ∧ 1 ≤ (1 : Byte).toNat ∧ (1 : Byte).toNat ≤ 72 ∧
    ([0x18, 0] : List Byte).length = (1 : Byte).toNat + 1 ∧ ([0x18, 0] : List Byte).foldl (· + ·) 1 ≠ 0 ∧
    (List.replicate 73 (0 : Byte)).length = (72 : Byte).toNat + 1 ∧ (List.replicate 73 (0 : Byte)).foldl (· + ·) 72 ≠ 0 ∧
    (0xA4 : Byte) ≠ 0xA5 := by
  simp only [allowed_iff, Takes, Listening, Receiving, NotReceiving, LowestFree, Matches, NoMatch, Composing, BytesCanonical]
  decide

theorem test_witness_frame_sent :
    let busy (f : Link → Link) : Link := (sLink fun l => f { l with sending := some (envelope 0x81 []) }).links[0]
    (busy fun l => { l with slot := some (.hold 200) }).sending.isSome = true ∧
    (busy fun l => { l with slot := some (.hold 200) }).slot = some (.hold 200) ∧
    (busy fun l => { l with slot := some .resume }).slot = some .resume ∧
    (busy fun l => { l with queue := sixteen }).slot = none ∧
    (busy fun l => { l with queue := sixteen }).queue = ⟨0x81, []⟩ :: sixteen.tail ∧
    (busy id).slot = none ∧ (busy id).queue = [] := by decide

theorem test_witness_link_timers :
    (sLink fun l => { l with hold := true, holdTimer := some 200 }).links[0].holdTimer.isSome = true ∧
    ((sJob .receiving).modLink 0 fun l => { l with silenceTimer := some 20 }).links[0].silenceTimer.isSome = true ∧
    Receiving 0 0 ((sJob .receiving).modLink 0 fun l => { l with silenceTimer := some 20 }) ∧
    (sLink fun l => { l with silenceTimer := some 20 }).links[0].silenceTimer.isSome = true ∧
    NotReceiving 0 (sLink fun l => { l with silenceTimer := some 20 }) := by
  simp only [allowed_iff, Takes, Listening, Receiving, NotReceiving, LowestFree, Matches, NoMatch, Composing, BytesCanonical]
  decide

theorem test_witness_link_reset :
    Takes 0 (sJob .receiving) ∧ Allowed 0 0x3F (sJob .receiving) ∧ Receiving 0 0 (sJob .receiving) ∧
    Takes 0 s0 ∧ Allowed 0 0x3F s0 ∧ NotReceiving 0 s0 ∧
    (sJob .receiving).links[0].spacing = false ∧ s0.links[0].spacing = false ∧
    (sLink fun l => { l with spacing := true }).links[0].spacing = true := by
  simp only [allowed_iff, Takes, Listening, Receiving, NotReceiving, LowestFree, Matches, NoMatch, Composing, BytesCanonical]
  decide

theorem test_witness_open :
    Takes 0 s0 ∧ Allowed 0 0x10 s0 ∧ modeOf (3 : Byte).toNat = some .setAndProof ∧ classOf (2 : Byte).toNat = some .rush ∧
    (3 : Byte).toNat ≤ 3 ∧ (1 : Byte).toNat ≤ 1 ∧ NotReceiving 0 s0 ∧ ownedBy 0 s0 < 12 ∧ LowestFree 0 s0 ∧
    s0.settings.fullReserve ≤ s0.store.freeCount := by
  simp only [allowed_iff, Takes, Listening, Receiving, NotReceiving, LowestFree, Matches, NoMatch, Composing, BytesCanonical]
  decide

/-- Twelve records of desk 0. -/
def sTwelve : State := { s0 with jobs := Vector.ofFn fun i => if i.val < 12 then job .composed else Job.free }

/-- No record FREE, eleven of desk 0. -/
def sNoFree : State :=
  { s0 with jobs := Vector.ofFn fun i => if i.val < 11 then job .composed else { job .composed with owner := 1 } }

/-- A free count of 63, one below FULL-RESERVE. -/
def sScarce : State := { s0 with store := { Store.start with fresh := 1985 } }

theorem test_witness_open_busy : ¬ NotReceiving 0 (sJob .receiving) ∧ Takes 0 (sJob .receiving) := by
  simp only [allowed_iff, Takes, Listening, Receiving, NotReceiving, LowestFree, Matches, NoMatch, Composing, BytesCanonical]
  decide

theorem test_witness_open_limit :
    Takes 0 sTwelve ∧ Allowed 0 0x10 sTwelve ∧ NotReceiving 0 sTwelve ∧ 12 ≤ ownedBy 0 sTwelve := by
  simp only [allowed_iff, Takes, Listening, Receiving, NotReceiving, LowestFree, Matches, NoMatch, Composing, BytesCanonical]
  decide

theorem test_witness_open_full :
    Takes 0 sNoFree ∧ Allowed 0 0x10 sNoFree ∧ NotReceiving 0 sNoFree ∧ ownedBy 0 sNoFree < 12 ∧
    (∀ j : JobId, sNoFree.jobs[j].state ≠ .free) := by
  simp only [allowed_iff, Takes, Listening, Receiving, NotReceiving, LowestFree, Matches, NoMatch, Composing, BytesCanonical]
  decide

theorem test_witness_open_scarce :
    Takes 0 sScarce ∧ Allowed 0 0x10 sScarce ∧ NotReceiving 0 sScarce ∧ ownedBy 0 sScarce < 12 ∧
    sScarce.store.freeCount < sScarce.settings.fullReserve := by
  simp only [allowed_iff, Takes, Listening, Receiving, NotReceiving, LowestFree, Matches, NoMatch, Composing, BytesCanonical]
  decide

theorem test_witness_text_appended :
    Takes 0 sText ∧ Allowed 0 0x11 sText ∧ (0 : Byte).toNat = (0 : JobId).val ∧ sText.jobs[0].state = .receiving ∧
    sText.jobs[0].owner = 0 ∧ nat2 0 32 = sText.jobs[0].bytes ∧ sText.jobs[0].bytes + 64 ≤ 32768 ∧
    (sText.jobs[0].bytes + 64 + 31) / 32 - (sText.jobs[0].bytes + 31) / 32 ≤ sText.store.freeCount := by
  simp only [allowed_iff, Takes, Listening, Receiving, NotReceiving, LowestFree, Matches, NoMatch, Composing, BytesCanonical]
  decide

/-- A RECEIVING job that holds the most text a job can. -/
def sTextFull : State :=
  withJob { job .receiving with bytes := 32768, firstBlock := some 0, lastBlock := some 1023 }

/-- A RECEIVING job with one block of text, and no free block left. -/
def sTextNoBlock : State :=
  { withJob { job .receiving with bytes := 32, firstBlock := some 0, lastBlock := some 0 } with
    store := { Store.start with fresh := 2048 } }

theorem test_witness_text_refused :
    Takes 0 sText ∧ Allowed 0 0x11 sText ∧
    (∀ j : JobId, (1 : Byte).toNat = j.val → ¬ (sText.jobs[j].state = .receiving ∧ sText.jobs[j].owner = 0)) ∧
    sText.jobs[0].state = .receiving ∧ sText.jobs[0].owner = 0 ∧ nat2 0 31 ≠ sText.jobs[0].bytes ∧
    Takes 0 sTextFull ∧ Allowed 0 0x11 sTextFull ∧ nat2 128 0 = sTextFull.jobs[0].bytes ∧
    32768 < sTextFull.jobs[0].bytes + 1 ∧
    Takes 0 sTextNoBlock ∧ Allowed 0 0x11 sTextNoBlock ∧ nat2 0 32 = sTextNoBlock.jobs[0].bytes ∧
    sTextNoBlock.store.freeCount <
      (sTextNoBlock.jobs[0].bytes + 1 + 31) / 32 - (sTextNoBlock.jobs[0].bytes + 31) / 32 := by
  simp only [allowed_iff, Takes, Listening, Receiving, NotReceiving, LowestFree, Matches, NoMatch, Composing, BytesCanonical]
  decide

theorem test_witness_text_stores :
    Takes 0 sText ∧ Allowed 0 0x11 sText ∧ BytesCanonical sText ∧
    (after (.text 0 [0, 0, 32, 0x41]) sText).isSome = true := by
  simp only [allowed_iff, Takes, Listening, Receiving, NotReceiving, LowestFree, Matches, NoMatch, Composing, BytesCanonical]
  decide

theorem test_witness_unmatched :
    Takes 0 s0 ∧ NoMatch 0 0 (word2 0 5) s0 ∧ NoMatch 0 32 (word2 0 5) (sJob .held) ∧ NoMatch 0 0 (word2 0 6) (sJob .held) ∧
    NoMatch 1 0 (word2 0 5) (sJob .held) ∧ Allowed 0 0x12 s0 ∧ Allowed 0 0x13 s0 ∧ Allowed 0 0x15 s0 ∧
    Allowed 0 0x14 s0 := by
  simp only [allowed_iff, Takes, Listening, Receiving, NotReceiving, LowestFree, Matches, NoMatch, Composing, BytesCanonical]
  decide

theorem test_witness_close :
    Takes 0 sText ∧ Allowed 0 0x12 sText ∧ Matches 0 0 (word2 0 5) 0 sText ∧ sText.jobs[0].state = .receiving ∧
    sText.jobs[0].bytes ≠ 0 ∧
    Takes 0 (sJob .receiving) ∧ Matches 0 0 (word2 0 5) 0 (sJob .receiving) ∧ (sJob .receiving).jobs[0].bytes = 0 ∧
    Takes 0 (sJob .queued) ∧ Matches 0 0 (word2 0 5) 0 (sJob .queued) ∧
    (sJob .queued).jobs[0].state ≠ .receiving := by
  simp only [allowed_iff, Takes, Listening, Receiving, NotReceiving, LowestFree, Matches, NoMatch, Composing, BytesCanonical]
  decide

theorem test_witness_cancel :
    Takes 0 (sJob .receiving) ∧ Allowed 0 0x13 (sJob .receiving) ∧ Matches 0 0 (word2 0 5) 0 (sJob .receiving) ∧
    Takes 0 (sJob .cancelled) ∧ Allowed 0 0x13 (sJob .cancelled) ∧ Matches 0 0 (word2 0 5) 0 (sJob .cancelled) ∧
    Takes 0 (sJob .composed) ∧ Allowed 0 0x13 (sJob .composed) ∧ Matches 0 0 (word2 0 5) 0 (sJob .composed) ∧
    (sJob .composed).jobs[0].state ≠ .receiving ∧ (sJob .composed).jobs[0].state ≠ .cancelled := by
  simp only [allowed_iff, Takes, Listening, Receiving, NotReceiving, LowestFree, Matches, NoMatch, Composing, BytesCanonical]
  decide

theorem test_witness_cancelled_leaves :
    (sJob .waitMount).jobs[0].state ≠ .free ∧ (sJob .queued).jobs[0].state ≠ .free ∧
    (sJob .queued).jobs[0].waitedFont = none := by decide

/-- A HELD job 0. -/
def sHeld (k : Exc) (words : Nat) : State :=
  { withJob { job .held with held := some ⟨k, 1, words⟩, heldTimer := some 60 } with queue := ⟨[0], none, []⟩ }

theorem test_witness_decide :
    Takes 0 (sHeld .loose 2) ∧ Allowed 0 0x14 (sHeld .loose 2) ∧ Matches 0 0 (word2 0 5) 0 (sHeld .loose 2) ∧
    (sHeld .loose 2).jobs[0].state = .held ∧ (sHeld .loose 2).jobs[0].held = some ⟨.loose, 1, 2⟩ ∧
    (Exc.loose ≠ .missing ∧ 2 ≤ 2 ∧ 2 ≤ 2) ∧ ¬ (Exc.loose ≠ .missing ∧ 2 ≤ 3 ∧ 3 ≤ 2) ∧
    Takes 0 (sHeld .missing 2) ∧ (sHeld .missing 2).jobs[0].held = some ⟨.missing, 1, 2⟩ ∧ ¬ Exc.missing ≠ .missing ∧
    Takes 0 (sJob .queued) ∧ Matches 0 0 (word2 0 5) 0 (sJob .queued) ∧ (sJob .queued).jobs[0].state ≠ .held := by
  simp only [allowed_iff, Takes, Listening, Receiving, NotReceiving, LowestFree, Matches, NoMatch, Composing, BytesCanonical]
  decide

theorem test_witness_held_timeout :
    (sHeld .loose 2).jobs[0].state = .held ∧ (sHeld .loose 2).jobs[0].heldTimer.isSome = true ∧
    (sHeld .loose 2).jobs[0].held = some ⟨.loose, 1, 2⟩ := by decide

theorem test_witness_release :
    Takes 0 (sJob .awaitRelease) ∧ Allowed 0 0x15 (sJob .awaitRelease) ∧ Matches 0 0 (word2 0 5) 0 (sJob .awaitRelease) ∧
    (sJob .awaitRelease).jobs[0].state = .awaitRelease ∧
    Takes 0 (sJob .queued) ∧ Matches 0 0 (word2 0 5) 0 (sJob .queued) ∧ (sJob .queued).jobs[0].state ≠ .awaitRelease := by
  simp only [allowed_iff, Takes, Listening, Receiving, NotReceiving, LowestFree, Matches, NoMatch, Composing, BytesCanonical]
  decide

/-- A ROUTINE job 0 and a PRIORITY job 1, both QUEUED. -/
def sTwoQueued : State :=
  { (sJob .queued).modJob 1 (fun _ => { job .queued with cls := .priority }) with queue := ⟨[0, 1], none, []⟩ }

theorem test_witness_selection :
    Composing 0 (sJob .composing) ∧ (∀ k : JobId, sTwoQueued.jobs[k].state ≠ .composing) ∧
    (sTwoQueued.queue.entry.filter fun j => decide (sTwoQueued.jobs[j].state = .queued)) = [0, 1] := by
  simp only [allowed_iff, Takes, Listening, Receiving, NotReceiving, LowestFree, Matches, NoMatch, Composing, BytesCanonical]
  decide

theorem test_select_priority_before_routine : nextJob sTwoQueued = some 1 := by decide

theorem test_witness_query_job :
    Takes 0 (sJob .held) ∧ Allowed 0 0x17 (sJob .held) ∧ 32 ≤ (32 : Byte).toNat ∧ (31 : Byte).toNat = (31 : JobId).val ∧
    (sJob .held).jobs[31].state = .free ∧ (0 : Byte).toNat = (0 : JobId).val ∧ (sJob .held).jobs[0].state ≠ .free := by
  simp only [allowed_iff, Takes, Listening, Receiving, NotReceiving, LowestFree, Matches, NoMatch, Composing, BytesCanonical]
  decide

/-- A font at number 3 with strip code 7, MOUNTED at position 1. -/
def sFont : State :=
  let d : Descriptor := .font .textFont 3 7 0 128 0x2A true (Vector.replicate 8 0x41)
  { s0.modPos 0 (fun q => { q with st := .mounted 3 7 }) with
    dir := { s0.dir with
      desc := (s0.dir.desc.set 3 d).set 4 (.gate 3 3 (some 12) none (Vector.replicate 8 0x42)) } }

theorem test_witness_test :
    Takes 0 sFont ∧ Allowed 0 0x37 sFont ∧ ownedBy 0 sFont < 12 ∧ LowestFree 0 sFont ∧ mountedFonts sFont = [3] := by
  simp only [allowed_iff, Takes, Listening, Receiving, NotReceiving, LowestFree, Matches, NoMatch, Composing, BytesCanonical]
  decide

theorem test_witness_probe :
    Takes 0 sFont ∧ Allowed 0 0x16 sFont ∧ 63 < (64 : Byte).toNat ∧
    descAt sFont (63 : Byte).toNat = some (.empty (Vector.replicate 8 0)) ∧
    descAt sFont (4 : Byte).toNat = some (.gate 3 3 (some 12) none (Vector.replicate 8 0x42)) ∧
    descAt sFont 3 = some (.font .textFont 3 7 0 128 0x2A true (Vector.replicate 8 0x41)) := by
  simp only [allowed_iff, Takes, Listening, Receiving, NotReceiving, LowestFree, Matches, NoMatch, Composing, BytesCanonical]
  decide

theorem test_witness_dir_write :
    Takes 0 sFont ∧ Allowed 0 0x30 sFont ∧ sFont.serial.save = none ∧ (sFont.dir.desc[(63 : Fin 64)].strip = none ∨ isMounted sFont 63 = false) ∧
    (∀ m : Fin 64, m ≠ 63 → sFont.dir.desc[m].strip ≠ some (255 : Byte).toNat) ∧
    (3 : Byte).toNat ≤ 3 ∧ (23 : Byte).toNat ≤ 23 ∧ 64 ≤ (64 : Byte).toNat ∧ (192 : Byte).toNat ≤ 192 ∧
    0x21 ≤ (0x21 : Byte).toNat ∧ (0x7F : Byte).toNat ≤ 0x7F ∧ (63 : Byte).toNat ≤ 63 ∧ (0 : Byte).toNat = 0 ∧
    6 ≤ (6 : Byte).toNat ∧ (48 : Byte).toNat ≤ 48 ∧ nat2 0xFF 0xFF = 65535 ∧ nat2 3 231 ≤ 999 := by
  simp only [allowed_iff, Takes, Listening, Receiving, NotReceiving, LowestFree, Matches, NoMatch, Composing, BytesCanonical]
  decide

theorem test_witness_width_write :
    Takes 0 sFont ∧ Allowed 0 0x31 sFont ∧ savingSettings sFont = false ∧
    (List.replicate 64 (96 : Byte)).length ≤ 64 ∧ 0x20 ≤ (0x40 : Byte).toNat ∧ (0x40 : Byte).toNat + 64 ≤ 0x80 ∧
    (∀ w ∈ List.replicate 64 (96 : Byte), w.toNat ≤ 96) ∧ tableMounted sFont 23 = false ∧
    tableMounted sFont 0 = true ∧ sFont.dir.tables[0].loaded = false := by
  simp only [allowed_iff, Takes, Listening, Receiving, NotReceiving, LowestFree, Matches, NoMatch, Composing, BytesCanonical]
  decide

theorem test_witness_strip_classified :
    fontOfStrip sFont 8 = none ∧ fontOfStrip sFont 7 = some 3 ∧ (1 : Pos) ≠ 0 ∧ sFont.mount.pos[0].font = some 3 ∧
    (∀ r : Pos, r ≠ 0 → sFont.mount.pos[r].font ≠ some 3) := by decide

/-- The scan, with a READ-STRIP in flight from a position. -/
def sReading (p : Pos) : State :=
  { sFont with imaging := { s0.imaging with move := some .readStrip, curPos := some p } }

theorem test_witness_strip_events :
    s0.mount.pos[0].st = .empty ∧ sFont.mount.pos[0].st ≠ .empty ∧ ¬ 0 < sFont.mount.pos[0].pins ∧
    0 < (sFont.modPos 0 fun q => { q with pins := 1 }).mount.pos[0].pins ∧
    s0.imaging.move ≠ some .readStrip ∧ (sReading 0).imaging.curPos ≠ some 1 ∧
    (sReading 4).imaging.move = some .readStrip ∧ (sReading 4).imaging.curPos = some 4 ∧ (5 : Pos).val = (4 : Pos).val + 1 ∧
    (sReading 5).imaging.curPos = some 5 ∧ (5 : Pos).val = 5 := by decide

/-! The letters of "at" and "press". -/

def wordAt : List Byte := [0x61, 0x74]
def wordPress : List Byte := [0x70, 0x72, 0x65, 0x73, 0x73]

/-- A dictionary with the one entry "at". -/
def sDict : State := { s0 with dict := put s0.dict (bucketOf wordAt) [⟨wordAt, [1], 0⟩] }

/-- A dictionary at its limit of 1,024 entries. -/
def sDictFull : State := { s0 with dict := Vector.replicate 256 (List.replicate 4 ⟨wordPress, [], 0⟩) }

/-- A save of each region in flight. -/
def sSavingSettings : State := { s0 with serial := { s0.serial with save := some (.settings (settingsImage s0)) } }
def sSavingDict : State := { s0 with serial := { s0.serial with save := some (.dictionary (dictImage s0)) } }

theorem test_witness_dict_add :
    Takes 0 sDict ∧ Allowed 0 0x20 sDict ∧ savingDictionary sDict = false ∧
    (∀ c ∈ wordAt, isLetter c = true) ∧ 2 ≤ wordAt.length ∧ [1].Pairwise (· < ·) ∧ (∀ b ∈ [1], 1 ≤ b ∧ b < wordAt.length) ∧
    (∃ e ∈ sDict.dict[bucketOf (foldWord wordAt)], e.word = foldWord wordAt) ∧
    (∀ e ∈ sDict.dict[bucketOf (foldWord wordPress)], e.word ≠ foldWord wordPress) ∧ dictCount sDict.dict < 1024 ∧
    ¬ (∀ b ∈ [2], 1 ≤ b ∧ b < wordAt.length) := by
  simp only [allowed_iff, Takes, Listening, Receiving, NotReceiving, LowestFree, Matches, NoMatch, Composing, BytesCanonical]
  decide

theorem test_witness_dict_full :
    Takes 0 sDictFull ∧ Allowed 0 0x20 sDictFull ∧ savingDictionary sDictFull = false ∧
    (∀ e ∈ sDictFull.dict[bucketOf (foldWord wordAt)], e.word ≠ foldWord wordAt) ∧ 1024 ≤ dictCount sDictFull.dict := by
  simp only [allowed_iff, Takes, Listening, Receiving, NotReceiving, LowestFree, Matches, NoMatch, Composing, BytesCanonical]
  decide

theorem test_witness_dict_saving :
    Takes 0 sSavingDict ∧ Allowed 0 0x20 sSavingDict ∧ savingDictionary sSavingDict = true := by
  simp only [allowed_iff, Takes, Listening, Receiving, NotReceiving, LowestFree, Matches, NoMatch, Composing, BytesCanonical]
  decide

theorem test_witness_dict_delete_and_lookup :
    Takes 0 sDict ∧ Allowed 0 0x21 sDict ∧ Allowed 0 0x22 sDict ∧ validWord wordAt = true ∧ savingDictionary sDict = false ∧
    savingDictionary sSavingDict = true ∧ Takes 0 sSavingDict ∧ Allowed 0 0x21 sSavingDict ∧
    sDict.dict[bucketOf (foldWord wordAt)] = [] ++ ⟨wordAt, [1], 0⟩ :: [] ∧
    (∀ e ∈ sDict.dict[bucketOf (foldWord wordPress)], e.word ≠ foldWord wordPress) ∧
    validWord [0x61] = false ∧ (List.replicate 70 (0 : Byte)).length ≤ 70 := by
  simp only [allowed_iff, Takes, Listening, Receiving, NotReceiving, LowestFree, Matches, NoMatch, Composing, BytesCanonical]
  decide

theorem test_witness_trim_write :
    Takes 0 s0 ∧ Allowed 0 0x32 s0 ∧ savingSettings s0 = false ∧
    Takes 0 sSavingSettings ∧ Allowed 0 0x32 sSavingSettings ∧ savingSettings sSavingSettings = true ∧
    (12 : Byte).toNat = (11 : Lens).val + 1 ∧ (6 : Byte).toNat = (5 : Pos).val + 1 ∧ 12 < (13 : Byte).toNat ∧
    6 < (7 : Byte).toNat ∧ (0 : Byte).toNat = 0 := by
  simp only [allowed_iff, Takes, Listening, Receiving, NotReceiving, LowestFree, Matches, NoMatch, Composing, BytesCanonical]
  decide

theorem test_witness_setting_write :
    Takes 0 s0 ∧ Allowed 0 0x33 s0 ∧ savingSettings s0 = false ∧
    Takes 0 sSavingSettings ∧ Allowed 0 0x33 sSavingSettings ∧ savingSettings sSavingSettings = true ∧
    (0 : Byte).toNat = 0 ∧ 41 < (42 : Byte).toNat ∧ settingRange (1 : Byte).toNat = some (0, 3) ∧
    settingRange (41 : Byte).toNat = some (1, 50) ∧ settingRange (10 : Byte).toNat = some (0, 2047) := by
  simp only [allowed_iff, Takes, Listening, Receiving, NotReceiving, LowestFree, Matches, NoMatch, Composing, BytesCanonical]
  decide

theorem test_witness_save :
    Takes 0 s0 ∧ Allowed 0 0x34 s0 ∧ s0.serial.save = none ∧ Takes 0 sSavingSettings ∧ Allowed 0 0x34 sSavingSettings ∧
    sSavingSettings.serial.save.isSome = true := by
  simp only [allowed_iff, Takes, Listening, Receiving, NotReceiving, LowestFree, Matches, NoMatch, Composing, BytesCanonical]
  decide

theorem test_witness_save_complete :
    sSavingSettings.serial.save = some (.settings (settingsImage s0)) ∧
    sSavingDict.serial.save = some (.dictionary (dictImage s0)) := ⟨rfl, rfl⟩

theorem test_witness_notices_and_query :
    Takes 0 s0 ∧ Allowed 0 0x35 s0 ∧ Takes 3 s0 ∧ Allowed 3 0x18 s0 := by
  simp only [allowed_iff, Takes, Listening, Receiving, NotReceiving, LowestFree, Matches, NoMatch, Composing, BytesCanonical]
  decide

/-- A segment of lines 1 to 3 of job 0, and a take that holds it, on a loaded roll with the gate true. -/
def segment : Segment := ⟨0, 1, 3, ⟨Config.house, 0, 0, 0, 1, 0⟩⟩
def sTake : State :=
  { sJob .composed with
    film := { s0.film with loaded := true, length := 864000, takeUp := true, doorClosed := true, take := [segment]
                           p := 1000, hw := 1000 } }

theorem test_witness_cut :
    s0.film.take = [] ∧ sTake.film.take ≠ [] ∧ Takes 0 s0 ∧ Allowed 0 0x36 s0 ∧ Takes 0 sTake ∧ Allowed 0 0x36 sTake := by
  simp only [allowed_iff, Takes, Listening, Receiving, NotReceiving, LowestFree, Matches, NoMatch, Composing, BytesCanonical]
  decide

/-- The proof channel with the enable on and a last character in flight. -/
def sPrinting (rest : List Byte) : State :=
  { sJob .composing with
    proof := { s0.proof with enable := true, printer := .ready, inFlight := some 0x0A, rest := rest }
    buffer := [⟨0, none, .notDue, .busy⟩] }

theorem test_witness_proof_set :
    Takes 0 s0 ∧ Allowed 0 0x38 s0 ∧ Allowed 0 0x39 s0 ∧ s0.proof.enable = false ∧ Takes 0 (sPrinting []) ∧
    Allowed 0 0x38 (sPrinting []) ∧ Allowed 0 0x39 (sPrinting []) ∧ (sPrinting []).proof.enable = true := by
  simp only [allowed_iff, Takes, Listening, Receiving, NotReceiving, LowestFree, Matches, NoMatch, Composing, BytesCanonical]
  decide

theorem test_witness_printer :
    s0.proof.inFlight = none ∧ (sPrinting [0x41]).proof.inFlight = some 0x0A ∧ (sPrinting [0x41]).proof.rest = 0x41 :: [] ∧
    (sPrinting []).proof.rest = [] ∧
    ((sPrinting []).buffer.find? fun r => decide (r.proof = .busy)).map (fun r => (r.job, r.text)) = some (0, none) := by decide

/-- A COMPOSING job 0 with the engine in a state. -/
def sCompose (e : EngineState) (o : Option OwedCut) : State :=
  { sJob .composing with engine := { s0.engine with st := e, owed := o } }

/-- The same, RUNNING, with a RUSH job 1 QUEUED. -/
def sRush : State :=
  (sCompose .running none).modJob 1 fun _ => { job .queued with cls := .rush }

theorem test_witness_line_build :
    Composing 0 (sCompose .waitScan none) ∧ (sCompose .waitScan none).engine.st ≠ .running ∧
    Composing 0 (sCompose .running (some .atEnd)) ∧ (sCompose .running (some .atEnd)).engine.st = .running ∧
    (sCompose .running (some .atEnd)).engine.owed = some .atEnd ∧
    Composing 0 sRush ∧ sRush.engine.st = .running ∧ sRush.engine.owed = none ∧ sRush.jobs[0].cls ≠ .rush ∧
    (∃ k : JobId, sRush.jobs[k].state = .queued ∧ sRush.jobs[k].cls = .rush) ∧
    (sCompose .running none).engine.owed = none ∧ Composing 0 (sCompose .running none) ∧
    ¬ (∃ k : JobId, (sCompose .running none).jobs[k].state = .queued ∧ (sCompose .running none).jobs[k].cls = .rush) := by
  simp only [allowed_iff, Takes, Listening, Receiving, NotReceiving, LowestFree, Matches, NoMatch, Composing, BytesCanonical]
  decide

/-! A context, a shape and a line closed with one word, for the pure functions. -/

def ctx1 : Context := ⟨Config.house, 0, 0, 0, 1, 0⟩
def shape1 : Shape := ⟨2880, 0, .justify, .nearestEven, 110, 0⟩
def closed1 : Closed := ⟨shape1, [⟨none, []⟩], .fill, true, ⟨ctx1, false⟩, false⟩
def build1 (sh : Option Shape) : Build :=
  { ctx := ctx1, cut := false, reading := .text, shape := sh, words := [], space := none, cur := [], lastSize := none,
    checked := false, exc := ⟨Config.noExc, Config.noExc⟩ }

theorem test_witness_line_appended :
    (withJob { job .composing with saved := some ctx1 }).jobs[0].saved = some ctx1 ∧ closed1.next.cut = false ∧
    closed1.atEnd = false := by decide

theorem test_witness_text_ends :
    let j : Job := { job .composing with textSinceCut := true, cutAtEnd := true }
    ¬ ((job .composing).imagingDue = true ∧ (job .composing).textSinceCut = true) ∧
    (j.imagingDue = true ∧ j.textSinceCut = true ∧ j.cutAtEnd = true) ∧ (withJob j).buffer.length < 64 ∧
    64 ≤ ({ withJob j with buffer := List.replicate 64 ⟨0, none, .due, .notDue⟩ } : State).buffer.length := by decide

theorem test_witness_ignored_byte :
    (build1 none).reading = .text ∧ (0x09 : Byte).toNat ≤ 0x09 ∧
    (0x0C ≤ (0x0C : Byte).toNat ∧ (0x0C : Byte).toNat ≤ 0x1A) ∧ (0x1C : Byte).toNat = 0x1C ∧ (0x1D : Byte).toNat = 0x1D ∧
    0x80 ≤ (0x80 : Byte).toNat ∧ 0x80 ≤ (0xFF : Byte).toNat := by decide

theorem test_witness_shape_taken : (build1 (some shape1)).shape = some shape1 := by decide

def space1 : Space := ⟨400, 600, 1200, 10, ⟨ctx1, false⟩⟩

theorem test_witness_justified :
    [space1] ≠ [] ∧ (∀ q ∈ [space1], q.min ≤ q.norm ∧ q.norm ≤ q.max) ∧ 1000 + sumMin [space1] ≤ 1400 ∧
    1400 < 1000 + sumNorm [space1] ∧ 1000 + sumNorm [space1] ≤ 1600 ∧ 2200 ≤ 1000 + sumMax [space1] := by decide

theorem test_witness_loose :
    [space1] ≠ [] ∧ (∀ q ∈ [space1], q.norm ≤ q.max) ∧ 1000 + sumMax [space1] < 2201 := by decide

/-- The sequencer in a state with a move in flight. -/
def sMove (st : ImgState) (m : Option ImgMove) : State :=
  { s0 with imaging := { s0.imaging with st := st, move := m, confirmTimer := some 400 } }

theorem test_witness_confirm :
    (sMove .starting (some (.turret 5))).imaging.move = some (.turret 5) ∧
    (sMove .starting (some (.turret 5))).imaging.st = .starting ∧
    (sMove .setting (some (.turret 5))).imaging.st ≠ .starting ∧
    (sMove .setting (some (.lens 11))).imaging.move = some (.lens 11) ∧
    (sMove .starting (some .lensHome)).imaging.move = some .lensHome ∧
    (∀ p, (sMove .setting none).imaging.move ≠ some (.turret p)) ∧
    (∀ l, (sMove .setting none).imaging.move ≠ some (.lens l)) ∧ (sMove .setting none).imaging.move ≠ some .lensHome := by decide

theorem test_witness_confirm_expiry :
    (sMove .setting (some .lensHome)).imaging.confirmTimer.isSome = true ∧
    ({ s0.imaging with limit := 7 } : Imaging).limit = 7 ∧
    (s0.imaging.limit ≠ 7 ∧ s0.imaging.retry < s0.imaging.limit) ∧
    ({ s0.imaging with retry := 3 } : Imaging).limit ≤ ({ s0.imaging with retry := 3 } : Imaging).retry := by decide

/-- A line of one element in hand. -/
def element1 : Element := ⟨0x41, 3, 4, 120, some 0, false⟩
def sElement (p : Option Pos) (l : Option Lens) : State :=
  { sFont with
    buffer := [⟨0, some ⟨1, ctx1, 110, [element1], none, false, Config.noExc⟩, .busy, .notDue⟩]
    imaging := { s0.imaging with st := .setting, move := none, elem := 0, curPos := p, curLens := l } }

theorem test_witness_element :
    ((imgRecord (sElement none none)).bind fun r => r.elements[(sElement none none).imaging.elem]?) = some element1 ∧
    element1.pos = some 0 ∧ (sElement none none).imaging.curPos ≠ some 0 ∧
    (sElement (some 0) none).imaging.curPos = some 0 ∧ (sElement (some 0) none).imaging.curLens ≠ some 4 ∧
    (sElement (some 0) (some 4)).imaging.curLens = some 4 := by decide

theorem test_witness_flash :
    (sMove .setting (some .flash)).imaging.move = some .flash ∧
    (sMove .setting (some .flash)).imaging.confirmTimer.isSome = true ∧ (sMove .setting none).imaging.move ≠ some .flash ∧
    ({ s0.imaging with seedPending := false } : Imaging).seedPending = false := by decide

/-- STOPPED with a reason, at a start-up stage. -/
def sStopped (r : StopReason) (g : Stage) (c : Bool) : State :=
  { s0 with imaging := { s0.imaging with st := .stopped, stop := r, stage := g, failCleared := c, move := none } }

theorem test_witness_clear :
    s0.imaging.st ≠ .stopped ∧ (sStopped .gate .done false).imaging.stop = .gate ∧
    ((sStopped .lampFail .done false).imaging.stop = .lampFail ∧ (sStopped .lampFail .done false).imaging.failCleared = false) ∧
    ((sStopped .turretFault .scan false).imaging.st = .stopped ∧ (sStopped .turretFault .scan false).imaging.stop = .turretFault ∧
      (sStopped .turretFault .scan false).imaging.stage ≠ .done) ∧
    ((sStopped .lensFault .lensHome false).imaging.stop = .lensFault ∧ (sStopped .lensFault .lensHome false).imaging.stage ≠ .done) ∧
    ((sStopped .lampFail .done true).imaging.failCleared = true) ∧ (sStopped .turretFault .done false).imaging.stage = .done := by decide

/-- A film move or a cut in flight. -/
def sFilm (m : Option FilmMove) (c : Option (CutStage × CutPurpose)) : State :=
  { sTake with film := { sTake.film with move := m, cut := c, cutTimer := some 2000 }
               imaging := { s0.imaging with st := .advancing, move := none } }

theorem test_witness_film_moves :
    (sFilm none none).film.move = none ∧ (sFilm (some (.advance 9)) (some (.advancingToCut, .record))).film.move = some (.advance 9) ∧
    (sFilm (some (.advance 9)) (some (.advancingToCut, .record))).film.cut = some (.advancingToCut, .record) ∧
    (sFilm (some (.reverse 9)) none).film.cut = none ∧ (sFilm (some (.reverse 9)) none).imaging.st = .advancing ∧
    (sFilm none none).film.cut = none ∧ (sFilm none (some (.blade, .filmOut))).film.cut = some (.blade, .filmOut) ∧
    (sFilm none (some (.blade, .filmOut))).film.cutTimer.isSome = true := by decide

theorem test_witness_film_and_gate :
    s0.film.loaded = false ∧ sTake.film.loaded = true ∧ sTake.film.takeUp = true ∧ s0.film.takeUp = false ∧
    sTake.film.doorClosed = true ∧ s0.film.doorClosed = false := by decide

theorem test_witness_settings_and_strips :
    SettingsOrdered s0 ∧ (∀ m : Fin 64, s0.dir.desc[m].strip = none) ∧ s0.pending = [] := by
  simp only [SettingsOrdered]; decide

theorem test_witness_dictionary : DictionarySound s0 := by
  constructor
  · decide
  · intro b
    have h : s0.dict[b] = [] := by simp [s0, State.reset, Config.emptyDictionary]
    rw [h]
    simp

theorem test_witness_bytes : BytesCanonical s0 := rfl

/-- A store no text has reached is sound. -/
theorem galleySound_blank (s : State) (hs : s.store = Store.start)
    (hj : ∀ j : JobId, s.jobs[j].bytes = 0 ∧ s.jobs[j].firstBlock = none ∧ s.jobs[j].lastBlock = none) : GalleySound s := by
  have hc : ∀ j : JobId, chainOf s.store s.jobs[j] = [] := by
    intro j
    rw [chainOf, (hj j).1]
    rfl
  have hlink : ∀ n a, a + n = 2048 → linked Store.start (List.range' a n) := by
    intro n
    induction n with
    | zero => intro a _; simp [linked]
    | succ n ih =>
      intro a ha
      cases n with
      | zero =>
        have : a = 2047 := by omega
        subst this
        simp [linked, Store.next, sparseRead, Store.start, startLink, Config.blocks]
      | succ m =>
        have hr := ih (a + 1) (by omega)
        simp only [List.range'_succ] at hr ⊢
        refine ⟨?_, hr⟩
        have : a + 1 < 2048 := by omega
        simp only [Store.next, Store.start, sparseRead, startLink, Config.blocks, this, if_true]
  refine ⟨?_, ?_, ?_, ?_, ?_⟩
  · rw [List.flatMap_eq_nil_iff.2 fun j _ => hc j]
    simp [hs, Store.freeList, Store.start, Config.blocks, List.range_eq_range']
  · rw [hs]
    simpa [Store.freeList, Store.start, Config.blocks] using hlink 2048 0 rfl
  · intro j
    rw [ChainSound, hc j, (hj j).1, (hj j).2.1, (hj j).2.2]
    simp [Config.maxText, blocksFor, Config.blockBytes, linked]
  · intro j _; exact (hj j).1
  · rw [hs]; rfl

theorem test_witness_text_reads_back :
    GalleySound (sJob .receiving) ∧ BytesCanonical (sJob .receiving) ∧ (sJob .receiving).jobs[0].state ≠ .free ∧
    (sJob .receiving).jobs[0].bytes + 64 ≤ 32768 ∧
    blocksNeeded (sJob .receiving).jobs[0].bytes 64 ≤ (sJob .receiving).store.freeCount :=
  ⟨galleySound_blank _ rfl (by decide), rfl, by decide, by decide, by decide⟩

theorem test_witness_galley : GalleySound s0 ∧ step s0 = .next s0 := ⟨galleySound_blank _ rfl (by decide), rfl⟩

theorem test_witness_only_text_stores :
    isEvent .clear = true ∧ frameOf (.queryMachine 0 []) = some (0, ⟨0x18, []⟩) ∧ (Instr.queryMachine 0 []).wellFormed = true ∧
    Listening 0 s0 ∧ (0x18 : Byte) ≠ 0x11 ∧ (after .clear s0).isSome = true ∧ (after (.queryMachine 0 []) s0).isSome = true := by
  simp only [allowed_iff, Takes, Listening, Receiving, NotReceiving, LowestFree, Matches, NoMatch, Composing, BytesCanonical]
  decide

/-! ## Worked examples of the manual -/

/-- The justification example of 06: four spaces at 10 points, an excess of 1,110 fine units. -/
def fourSpaces : List Space := List.replicate 4 ⟨400, 600, 1200, 10, ⟨ctx1, false⟩⟩

theorem test_justify_example : setLine .justify 34560 31050 fourSpaces = ⟨[878, 878, 877, 877], 0⟩ := by decide
theorem test_round_to_even_step : toStep .nearestEven 16806 = 1400 := by decide
theorem test_round_up_at_half : toStep .nearestUp 16806 = 1401 := by decide
theorem test_hash_press : hashWord wordPress = 227 := by decide

/-- "hyphenation" is in bucket 163, and the rules break it after its seventh letter. -/
def wordHyphenation : List Byte := [0x68, 0x79, 0x70, 0x68, 0x65, 0x6E, 0x61, 0x74, 0x69, 0x6F, 0x6E]
theorem test_hash_hyphenation : hashWord wordHyphenation = 163 := by decide
theorem test_rules_hyphenation : rulePositions wordHyphenation = [7] := by decide
theorem test_size_between_lenses : [0, 6, 11, 13, 47, 48, 72].map snapSize = [6, 6, 10, 12, 36, 48, 48] := by decide
theorem test_close_frame_bytes : envelope 0x12 [5, 1, 2] = [0xA5, 0x04, 0x12, 0x05, 0x01, 0x02, 0xE2] := by decide
theorem test_soak_energy : energy 128 128 512 0 1 = 128 := by decide
theorem test_online_energy_at_reference : energy 128 128 512 (64 * 512) 0 = 128 := by decide
theorem test_drive_stretched : drive 10000 35 = 10035 := by decide

/-! ## One small test for each command -/

theorem test_reset : got .reset sTake (fun t => (t.film.take, t.imaging.st, t.imaging.move)) =
    some ([], .starting, some (.turret 0)) := by decide
theorem test_bad_frame : got (.badFrame 0 [0xA5, 0]) s0 (fun t => t.links[0].badFrames) = some 1 := by decide
theorem test_kept_frame_dropped :
    got (.keptFrameDropped 0 0x18 []) (sLink fun l => { l with kept := some ⟨0x36, []⟩, badFrames := 65535 })
      (fun t => (t.links[0].kept, t.links[0].badFrames)) = some (some ⟨0x36, []⟩, 65535) := by decide
theorem test_kept_request_taken :
    got (.keptRequestTaken 0) (sLink fun l => { l with kept := some ⟨0x36, []⟩ })
      (fun t => (t.links[0].kept, t.links[0].sending)) = some (none, some (envelope 0x80 [0x36, 0])) := by decide
theorem test_frame_sent :
    got (.frameSent 0) (sLink fun l => { l with sending := some (envelope 0x80 [0]), slot := some (.hold 200), queue := [⟨0x83, []⟩] })
      (fun t => (t.links[0].sending, t.links[0].queue)) = some (some (envelope 0x81 [0, 200]), [⟨0x83, []⟩]) := by decide
theorem test_unknown_request :
    got (.unknownRequest 1 0x19 []) s0 (fun t => t.links[1].sending) = some (some (envelope 0x80 [0x19, 11])) := by decide
theorem test_open_rush :
    got (.openJob 1 [0, 5, 0, 2, 0, 0]) s0 (fun t => (t.jobs[0].cls, t.links[1].sending)) =
      some (.priority, some (envelope 0x80 [0x10, 0, 0, 1, 2])) := by decide
theorem test_text :
    got (.text 0 [0, 0, 32, 0x41]) sText
      (fun t => (t.jobs[0].bytes, t.jobs[0].lastBlock, Memory.read t.store.cells 32)) =
    some (33, some 1, 0x41) := by decide
theorem test_text_gap :
    got (.text 0 [0, 0, 31, 0x41]) sText (fun t => (t.jobs[0].state, t.store.freeCount, t.links[0].sending)) =
    some (.free, 2048, some (envelope 0x83 [5, 0, 0, 3])) := by decide
theorem test_close_empty :
    got (.close 0 [0, 0, 5]) (sJob .receiving) (fun t => t.jobs[0].state) = some .free := by decide
theorem test_cancel_receiving :
    got (.cancel 0 [0, 0, 5]) (sJob .receiving) (fun t => (t.jobs[0].state, t.links[0].sending, t.links[0].flags)) =
      some (.free, some (envelope 0x80 [0x13, 0]), 0) := by decide
theorem test_cancel_held :
    got (.cancel 0 [0, 0, 5]) (sHeld .loose 2) (fun t => t.jobs[0].state) = some .free := by decide
theorem test_decide_proposed :
    got (.decideProposed 0 0 5 []) (sHeld .loose 2) (fun t => (t.jobs[0].state, t.jobs[0].decisions.map (·.l))) =
      some (.composing, [some .proposed]) := by decide
theorem test_decide_default_with_index :
    got (.decideDefault 0 0 5 [2]) (sHeld .loose 2) (fun t => (t.jobs[0].state, t.links[0].sending)) =
    some (.held, some (envelope 0x80 [0x14, 7])) := by decide
theorem test_decide_ragged_missing :
    got (.decideRagged 0 0 5 []) (sHeld .missing 2) (fun t => (t.jobs[0].state, t.links[0].sending)) =
    some (.held, some (envelope 0x80 [0x14, 7])) := by decide
theorem test_decide_break_before :
    got (.decideBreakBefore 0 0 5 [2]) (sHeld .overset 2) (fun t => t.jobs[0].decisions.map (·.o)) =
    some [some (.breakBefore 2)] := by decide
theorem test_decide_break_out_of_range :
    got (.decideBreakBefore 0 0 5 [3]) (sHeld .overset 2) (fun t => t.jobs[0].state) = some .held := by decide
theorem test_release : got (.release 0 [0, 0, 5]) (sJob .awaitRelease) (fun t => (t.jobs[0].state, t.jobs[0].phase)) =
    some (.composing, .set) := by decide
theorem test_probe_gate : got (.probe 0 [4]) sFont (fun t => t.links[0].sending.map fun f => (f.drop 3).take 6) =
    some (some [0x16, 0, 0, 1, 3, 1]) := by decide
theorem test_query_job_free :
    got (.queryJob 2 [0]) s0 (fun t => t.links[2].sending) = some (some (envelope 0x80 [0x17, 5])) := by decide
theorem test_query_machine :
    got (.queryMachine 3 []) s0 (fun t => t.links[3].sending.map fun f => (f.length - 4, (f.drop 3).take 5)) =
    some (some (36, [0x18, 0, 8, 0, 0])) := by decide
theorem test_dict_add_replaces :
    got (.dictAdd 0 [2, 0x41, 0x54, 0]) sDict (fun t => (t.dict[bucketOf wordAt], t.links[0].sending)) =
    some ([⟨wordAt, [], 0⟩], some (envelope 0x80 [0x20, 0, 1, 0, 1])) := by decide
theorem test_dict_add_full :
    got (.dictAdd 0 [2, 0x41, 0x54, 0]) sDictFull
      (fun t => t.links[0].sending) = some (some (envelope 0x80 [0x20, 2])) := by decide
theorem test_dict_delete :
    got (.dictDelete 0 [2, 0x61, 0x74]) sDict (fun t => t.dict[bucketOf wordAt]) = some [] := by decide
theorem test_dict_lookup : got (.dictLookup 0 [2, 0x61, 0x74]) sDict (fun t => t.links[0].sending) =
    some (some (envelope 0x80 [0x22, 0, byteOf (hashWord wordAt), 0, 1, 1, 0])) := by decide
theorem test_dir_write_font_mounted :
    got (.dirWriteFont 0 3 .pi [0, 9, 0, 64, 0x21, 0, 1, 2, 3, 4, 5, 6, 7, 8]) sFont (fun t => t.links[0].sending) =
    some (some (envelope 0x80 [0x30, 8])) := by decide
theorem test_dir_write_gate :
    got (.dirWriteGate 0 9 [0, 3, 10, 0xFF, 0xFF, 1, 2, 3, 4, 5, 6, 7, 8]) sFont (fun t => t.dir.desc[9]) =
    some (.gate 0 3 (some 10) none #v[1, 2, 3, 4, 5, 6, 7, 8]) := by decide
theorem test_dir_write_clear :
    got (.dirWriteClear 0 4 []) sFont (fun t => t.dir.desc[4]) = some (.empty (Vector.replicate 8 0)) := by decide
theorem test_width_write :
    got (.widthWrite 0 [0, 0x20, 50, 60]) sFont (fun t => (t.dir.tables[0].loaded, t.dir.tables[0].widths[1])) =
    some (true, 60) := by decide
theorem test_trim_write_lens :
    got (.trimWriteLens 0 [12, 0xFF, 0x00]) s0 (fun t => t.imaging.written.lens[11]) = some (-200) := by decide
theorem test_trim_write_baseline :
    got (.trimWriteBaseline 0 [6, 0, 51]) s0 (fun t => t.imaging.written.base[5]) = some 50 := by decide
theorem test_trim_write_exposure :
    got (.trimWriteExposureBase 0 [1, 0, 0]) s0 (fun t => t.imaging.written.expo[0]) = some 1 := by decide
theorem test_setting_write_low :
    got (.settingWrite 0 [11, 7, 255]) s0 (fun t => (t.settings.low, t.settings.high, t.links[2].hold)) =
    some (2047, 2048, false) := by decide
theorem test_setting_write_low_holds :
    got (.settingWrite 0 [11, 7, 255]) sScarce (fun t => (t.links[2].hold, t.links[2].sending)) =
    some (true, some (envelope 0x81 [0, 200])) := by decide
theorem test_save_settings : got (.saveSettings 0 []) s0 (fun t => t.serial.save.isSome) = some true := by decide
theorem test_save_dictionary_busy :
    got (.saveDictionary 0 []) sSavingSettings
      (fun t => t.links[0].sending) = some (some (envelope 0x80 [0x34, 1])) := by decide
theorem test_save_complete : got .saveComplete sSavingSettings (fun t => t.serial.save) = some none := rfl
theorem test_notice_mask : got (.noticeMask 1 [0xFF, 0xFE]) s0 (fun t => (t.links[1].mask, t.links[1].sending)) =
    some (2046, some (envelope 0x80 [0x35, 0, 7, 0xFE])) := by decide
theorem test_cut_empty_take :
    got (.cut 0 []) s0
      (fun t => (t.film.pendingCut, t.links[0].sending)) = some (false, some (envelope 0x80 [0x36, 0])) := by decide
theorem test_test_rule_unmounted :
    got (.testRule 0 []) s0 (fun t => t.links[0].sending) = some (some (envelope 0x80 [0x37, 6])) := by decide
theorem test_test_align :
    got (.testAlign 0 []) sFont (fun t => (t.jobs[0].state, t.jobs[0].pattern, t.jobs[0].cutAtEnd)) =
    some (.composing, .align [3], true) := by decide
theorem test_test_print :
    got (.testPrint 1 []) s0 (fun t => t.links[1].sending) = some (some (envelope 0x80 [0x37, 4])) := by decide
theorem test_proof_config :
    got (.proofConfig 0 [9, 0, 7]) s0 (fun t => (t.proof.linesPerPage, t.proof.header, t.proof.marks)) =
    some (10, false, true) := by decide
theorem test_proof_enable_on :
    got (.proofEnableOn 0 []) s0 (fun t => (t.proof.enable, t.proof.newPage)) = some (true, true) := by decide
theorem test_proof_enable_off :
    got (.proofEnableOff 0 []) (sPrinting []) (fun t => (t.proof.inFlight, t.buffer.map (·.proof))) =
    some (none, [.due]) := by decide
theorem test_link_reset : got (.linkReset 0 []) ((sJob .receiving).modLink 0 fun l => { l with badFrames := 9 })
    (fun t => (t.jobs[0].state, t.links[0].badFrames, t.links[0].sending, t.links[0].queue)) =
    some (.free, 0, some (envelope 0x83 [5, 0, 0, 2]), [⟨0x80, [0x3F, 0]⟩]) := by decide
theorem test_break :
    got (.breakCondition 0) (sJob .receiving) (fun t => (t.jobs[0].state, t.links[0].spacing, t.links[0].queue)) =
    some (.free, true, []) := by decide
theorem test_return_to_marking :
    got (.returnToMarking 0) (sLink fun l => { l with spacing := true })
      (fun t => t.links[0].spacing) = some false := by decide
theorem test_hold_timer : got (.holdTimerExpiry 0) (sLink fun l => { l with hold := true, holdTimer := some 200 })
    (fun t => (t.links[0].hold, t.links[0].holdTimer, t.links[0].sending)) = some (false, none, none) := by decide
theorem test_silence_timer :
    got (.silenceTimerExpiry 0) ((sJob .receiving).modLink 0 fun l => { l with silenceTimer := some 20 })
    (fun t => (t.jobs[0].state, t.links[0].sending)) = some (.free, some (envelope 0x83 [5, 0, 0, 1])) := by decide
theorem test_held_timeout :
    got (.heldTimeout 0) (sHeld .nobreak 1) (fun t => (t.jobs[0].state, t.jobs[0].decisions.map (·.n))) =
    some (.composing, [some .default]) := by decide
theorem test_confirm_expiry :
    got .confirmTimerExpiry (sMove .setting (some (.lens 2))) (fun t => (t.imaging.retry, t.port.getLast?)) =
    some (1, some (.lens 2)) := by decide
theorem test_flash_timeout :
    got .flashTimeout (sElement (some 0) (some 4)) (fun t => t.imaging.elem) = some 0 := by decide
theorem test_cut_timer :
    got .cutTimerExpiry (sFilm none (some (.blade, .pending)))
      (fun t => (t.imaging.st, t.imaging.stop, t.film.take)) =
    some (.stopped, .cutFault, []) := by decide
theorem test_line_build_end :
    got .lineBuild (sCompose .running none)
      (fun t => (t.jobs[0].state, t.engine.st)) = some (.free, .idle) := by decide
theorem test_confirm_turret :
    got (.confirm .turret) (sMove .starting (some (.turret 0))) (fun t => (t.imaging.move, t.port.getLast?)) =
    some (some .readStrip, some .readStrip) := by decide
theorem test_flash_done :
    got (.flashDone 500) (sMove .setting (some .flash))
      (fun t => (t.imaging.a64, t.imaging.seedPending, t.imaging.soak)) =
    some (32000, false, 63) := by decide
theorem test_strip_code : got (.stripCode 0 (some 9)) (sReading 0) (fun t => (t.mount.pos[0].st, t.imaging.move)) =
    some (.unknown 9, some (.turret 1)) := by decide
theorem test_strip_in : got (.stripIn 2 7) sFont (fun t => t.mount.pos[2].st) = some (.duplicate 7) := by decide
theorem test_strip_out : got (.stripOut 0) (sFont.modPos 2 fun q => { q with st := .duplicate 7 })
    (fun t => (t.mount.pos[0].st, t.mount.pos[2].st)) = some (.empty, .mounted 3 7) := by decide
theorem test_lamp_changed :
    got .lampChanged (sStopped .lampFail .done false) (fun t => (t.imaging.failCleared, t.imaging.soak)) =
    some (true, 64) := by decide
theorem test_clear : got .clear (sStopped .stripLost .done false) (fun t => (t.imaging.st, t.imaging.stop)) =
    some (.stopped, .noFilm) := by decide
theorem test_move_done :
    got .moveDone (sFilm (some (.advance 9)) (some (.advancingToCut, .pending)))
      (fun t => (t.film.cut, t.film.cutTimer)) =
    some (some (.blade, .pending), some 2000) := by decide
theorem test_cut_done :
    got .cutDone (sFilm none (some (.blade, .pending))) (fun t => (t.film.cut, t.film.cutpos, t.film.take)) =
    some (none, 1000, []) := by decide
theorem test_cut_button : got .cutButton s0 (fun t => t.film.pendingCut) = some false := by decide
theorem test_magazine_loaded :
    got (.magazineLoaded 5) s0 (fun t => (t.film.loaded, t.film.length)) = some (true, 86400) := by decide
theorem test_magazine_out :
    got .magazineOut sTake (fun t => (t.film.loaded, t.film.take)) = some (false, []) := by decide
theorem test_take_up_in : got .takeUpIn s0 (fun t => t.film.takeUp) = some true := by decide
theorem test_take_up_out : got .takeUpOut sTake (fun t => (t.film.takeUp, t.film.take)) = some (false, []) := by decide
theorem test_door_open : got .doorOpen sTake (fun t => (t.film.doorClosed, t.film.take)) = some (false, []) := by decide
theorem test_door_closed : got .doorClosed s0 (fun t => t.film.doorClosed) = some true := by decide
theorem test_ready : got .ready s0 (fun t => t.proof.printer) = some .ready := by decide
theorem test_paper_out :
    got .paperOut (sPrinting [0x41]) (fun t => (t.proof.printer, t.buffer.map (·.proof), t.proof.newPage)) =
    some (.paperOut, [.due], true) := by decide
theorem test_printer_fault : got .fault s0 (fun t => t.proof.printer) = some .fault := by decide
theorem test_accept :
    got .accept (sPrinting [0x41]) (fun t => (t.proof.inFlight, t.proof.rest)) = some (some 0x41, []) := by decide
theorem test_good_frame_kept :
    got (.goodFrameKept 0 0x18 []) (sLink fun l => { l with queue := sixteen, sending := some (envelope 0x80 []) })
      (fun t => t.links[0].kept) =
    some (some ⟨0x18, []⟩) := by decide

/-! ## Witnesses of single clauses -/

theorem test_witness_payload_coding :
    frameOf (.openJob 0 [0, 1, 4, 0, 0, 0]) = some (0, ⟨0x10, [0, 1, 4, 0, 0, 0]⟩) ∧ Takes 0 s0 ∧ Allowed 0 0x10 s0 ∧
    payloadCoded ⟨0x10, [0, 1, 4, 0, 0, 0]⟩ = false ∧ payloadCoded ⟨0x10, [0, 1, 3, 2, 3, 1]⟩ = true ∧
    payloadCoded ⟨0x20, [1, 0x61, 1]⟩ = false ∧ payloadCoded ⟨0x20, [1, 0x61, 1, 9]⟩ = true ∧
    payloadCoded ⟨0x11, [0, 0, 0]⟩ = false ∧ payloadCoded ⟨0x31, [0, 0x1F, 9]⟩ = false := by
  simp only [allowed_iff, Takes, Listening, Receiving, NotReceiving, LowestFree, Matches, NoMatch, Composing, BytesCanonical]
  decide

theorem test_witness_kept_refused :
    let kept (t : Byte) := sLink fun l => { l with kept := some ⟨t, []⟩ }
    (0x19 : Byte).toNat ∉ requestTypes ∧ (kept 0x19).links[0].kept = some ⟨0x19, []⟩ ∧ (kept 0x19).links[0].queue.length < 16 ∧
    (0x36 : Byte).toNat ∈ requestTypes ∧
    ¬ Allowed 1 0x36 (s0.modLink 1 fun l => { l with kept := some ⟨0x36, []⟩ }) ∧
    (s0.modLink 1 fun l => { l with kept := some ⟨0x36, []⟩ }).links[1].kept = some ⟨0x36, []⟩ := by
  simp only [allowed_iff, Takes, Listening, Receiving, NotReceiving, LowestFree, Matches, NoMatch, Composing, BytesCanonical]
  decide

theorem test_witness_spacing :
    (sLink fun l => { l with spacing := true }).links[0].spacing = true ∧ frameOf (.cut 0 []) = some (0, ⟨0x36, []⟩) := by decide

theorem test_witness_blocks_freed :
    1985 < (settle 1985 s0).store.freeCount ∧ s0.settings.high ≤ (settle 1985 s0).store.freeCount := by decide

/-- Decisions of the lines 1 to 8, as many as a list holds. -/
def eight : List Decision := (List.range 8).map fun i => (Decision.bare (i + 1)).put .loose (some .ragged)

theorem test_witness_decision_list :
    eight.Pairwise (fun x y => x.line < y.line) ∧ eight.length ≤ 8 ∧ 8 ≤ eight.length ∧ (∃ x ∈ eight, x.line = 8) ∧
    (∀ x ∈ eight, x.line ≠ 9) ∧ (eight.drop 1).length < 8 ∧ (9 ≠ 8 ∨ Exc.loose ≠ Exc.overset) := by decide
theorem test_decision_list_gives_up_lowest :
    (recordDecision 9 .overset .default eight).map (·.line) = [2, 3, 4, 5, 6, 7, 8, 9] := by decide

theorem test_witness_settled :
    (∀ k : JobId, (settle 0 s0).jobs[k].state ≠ .composing) ∧ (0 : JobId) ∈ (settle 0 (sHeld .loose 2)).queue.entry ∧
    (∀ k : JobId, (settle 0 (sHeld .loose 2)).jobs[k].state ≠ .composing) := by decide

theorem test_witness_test_refused :
    Takes 0 s0 ∧ Allowed 0 0x37 s0 ∧ mountedFonts s0 = [] ∧ mountedFonts sFont ≠ [] ∧
    Takes 0 sTwelve ∧ Allowed 0 0x37 sTwelve ∧ 12 ≤ ownedBy 0 sTwelve ∧
    mountedFonts { sFont with jobs := sTwelve.jobs } ≠ [] ∧ 12 ≤ ownedBy 0 { sFont with jobs := sTwelve.jobs } ∧
    Takes 0 sNoFree ∧ ownedBy 0 sNoFree < 12 ∧ (∀ j : JobId, sNoFree.jobs[j].state ≠ .free) ∧
    ownedBy 0 { sFont with jobs := sNoFree.jobs } < 12 ∧
    mountedFonts { sFont with jobs := sNoFree.jobs } ≠ [] := by
  simp only [allowed_iff, Takes, Listening, Receiving, NotReceiving, LowestFree, Matches, NoMatch, Composing, BytesCanonical]
  decide

/-- Font 3 at level 1, with its width table loaded, not MOUNTED, and a gate of level 2 to it. -/
def sGated (mounted loaded : Bool) : State :=
  let d : Descriptor := .font .textFont 1 7 0 128 0x2A true (Vector.replicate 8 0x41)
  { s0.modPos 0 (fun q => { q with st := if mounted then .mounted 3 7 else .empty }) with
    dir := { s0.dir with
      desc := (s0.dir.desc.set 3 d).set 4 (.gate 2 3 (some 12) none (Vector.replicate 8 0x42))
      tables := s0.dir.tables.set 0 ⟨Vector.replicate 96 20, loaded⟩ } }

theorem test_witness_access :
    (64 : Nat) > 63 ∧ descAt s0 5 = some (.empty (Vector.replicate 8 0)) ∧
    descAt (sGated true true) 4 = some (.gate 2 3 (some 12) none (Vector.replicate 8 0x42)) ∧
    descAt (sGated true true) 3 = some (.font .textFont 1 7 0 128 0x2A true (Vector.replicate 8 0x41)) ∧
    (tableAt (sGated true true) 0).loaded = true ∧ (tableAt (sGated true false) 0).loaded = false ∧
    (∃ p : Pos, (sGated true true).mount.pos[p].font = some 3) ∧
    ¬ (∃ p : Pos, (sGated false true).mount.pos[p].font = some 3) := by decide
theorem test_access_by_level :
    ([0, 1, 2, 3].map fun n => accessCheck (sGated true true) 3 n true) = [.pass 3 none none, .pass 3 none none, .fontDenied, .fontDenied] ∧
    ([0, 2, 3].map fun n => accessCheck (sGated true true) 4 n true) =
      [.pass 3 (some 12) none, .pass 3 (some 12) none, .fontDenied] ∧
    accessCheck (sGated false true) 3 0 true = .wait 3 ∧ accessCheck (sGated true false) 3 0 true = .fontRange := by decide
theorem test_line_start_by_gate :
    ([1, 2, 3].map fun n => lineStartCheck (sGated true true) 3 n true) =
      [.pass 3 none none, .pass 3 none none, .fontDenied] := by decide

theorem test_witness_dir_write_refused :
    Takes 0 sSavingSettings ∧ Allowed 0 0x30 sSavingSettings ∧ savingSettings sSavingSettings = true ∧
    Takes 0 sFont ∧ Allowed 0 0x30 sFont ∧ savingSettings sFont = false ∧ (1 : Byte).toNat ≤ 1 ∧ 63 < (64 : Byte).toNat ∧
    ¬ (4 : Byte).toNat ≤ 3 ∧ (3 : Byte).toNat = (3 : Fin 64).val ∧ isMounted sFont (3 : Fin 64).val = true ∧ sFont.dir.desc[(3 : Fin 64)].strip ≠ none ∧
    ¬ (∃ o : Fin 64, o ≠ 3 ∧ sFont.dir.desc[o].strip = some (7 : Byte).toNat) ∧
    (∃ o : Fin 64, o ≠ 9 ∧ sFont.dir.desc[o].strip = some (7 : Byte).toNat) := by
  simp only [allowed_iff, Takes, Listening, Receiving, NotReceiving, LowestFree, Matches, NoMatch, Composing, BytesCanonical]
  decide
theorem test_witness_width_write_refused :
    Takes 0 sSavingSettings ∧ Allowed 0 0x31 sSavingSettings ∧ savingSettings sSavingSettings = true ∧
    Takes 0 (sGated true true) ∧ Allowed 0 0x31 (sGated true true) ∧ savingSettings (sGated true true) = false ∧
    23 < (24 : Byte).toNat ∧ (∃ w ∈ ([97] : List Byte), 96 < w.toNat) ∧ 0x80 < (0x7F : Byte).toNat + [96, (96 : Byte)].length ∧
    (0 : Byte).toNat = (0 : Fin 24).val ∧ tableMounted (sGated true true) 0 = true ∧
    (sGated true true).dir.tables[(0 : Fin 24)].loaded = true := by
  simp only [allowed_iff, Takes, Listening, Receiving, NotReceiving, LowestFree, Matches, NoMatch, Composing, BytesCanonical]
  decide

theorem test_witness_dict_delete_checks :
    Takes 0 sDict ∧ Allowed 0 0x21 sDict ∧ savingDictionary sDict = false ∧ validWord [0x61] = false ∧
    ([0x61] : List Byte).length ≤ 70 := by
  simp only [allowed_iff, Takes, Listening, Receiving, NotReceiving, LowestFree, Matches, NoMatch, Composing, BytesCanonical]
  decide

theorem test_witness_dictionary_entry : DictionarySound sDict := by
  refine ⟨by decide, fun b => ?_⟩
  by_cases h : b = bucketOf wordAt
  · subst h
    have h : sDict.dict[bucketOf wordAt] = [⟨wordAt, [1], 0⟩] := by decide
    rw [h]
    exact ⟨by simp, by simp⟩
  · have h : sDict.dict[b] = [] := by
      have hne : (bucketOf wordAt).val ≠ b.val := fun e => h (Fin.ext e.symm)
      simp [sDict, put, Vector.getElem_set, hne, s0, State.reset, Config.emptyDictionary]
    rw [h]
    simp

theorem test_witness_idle : (settle 0 { s0 with imaging := { s0.imaging with st := .idle } }).imaging.st = .idle := by decide

/-- A proof line of job 0 due, the channel ready, the page's new-page flag as given. -/
def sProofDue (new : Bool) : State :=
  { sJob .composing with
    proof := { s0.proof with enable := true, printer := .ready, newPage := new, last := some (0, 0, 5) }
    buffer := [⟨0, some ⟨1, ctx1, 110, [], none, false, Config.noExc⟩, .done, .due⟩] }

theorem test_witness_proof_begun :
    (sProofDue true).proof.enable = true ∧ (sProofDue true).proof.printer = .ready ∧
    (∀ r ∈ (sProofDue true).buffer, r.proof ≠ .busy) ∧ (sProofDue true).proof.newPage = true ∧
    (sProofDue false).proof.newPage = false ∧
    (sProofDue false).proof.last = some (0, (sProofDue false).jobs[(0 : JobId)].owner, (sProofDue false).jobs[(0 : JobId)].tag) ∧
    ((sProofDue false).buffer.find? fun r => decide (r.proof = .due)) =
      some ⟨0, some ⟨1, ctx1, 110, [], none, false, Config.noExc⟩, .done, .due⟩ := by decide

theorem test_witness_proof_waits :
    let off : State := { sProofDue true with proof := s0.proof }
    ((settle 0 off).buffer.find? fun r => decide (r.proof = .due)).isSome = true ∧ (settle 0 off).proof.enable = false ∧
    ((settle 0 { sProofDue true with buffer := (sProofDue true).buffer ++ (sProofDue true).buffer }).buffer.find?
      fun r => decide (r.proof = .due)).isSome = true := by decide

theorem test_witness_proof_record :
    (∀ r ∈ s0.buffer, r.proof ≠ .busy) ∧
    ((sPrinting []).buffer.find? fun r => decide (r.proof = .busy)) = some ⟨0, none, .notDue, .busy⟩ ∧
    (sPrinting []).jobs[0].state = .composing := by decide

theorem test_witness_line_cut :
    let s := withJob { job .composing with saved := some ctx1, cutAtEnd := true }
    s.jobs[0].saved = some ctx1 ∧ s.jobs[0].imagingDue = true ∧ s.jobs[0].cutAtEnd = true ∧ s.buffer.length < 63 ∧
    63 ≤ ({ s with buffer := List.replicate 63 ⟨0, none, .due, .notDue⟩ } : State).buffer.length ∧
    (withJob { job .composing with saved := some ctx1, mode := .proofOnly }).jobs[0].imagingDue = false := by decide

/-- Requests for the fonts 3 and 5, with jobs 0 and 1 waiting for font 3, job 1 without a place in a request. -/
def sWaiting : State :=
  { (withJob { job .waitMount with waitedFont := some 3 }).modJob 1 (fun _ => { job .waitMount with waitedFont := some 3 }) with
    mount := { s0.mount with requests := [⟨3, none, [0]⟩, ⟨5, none, []⟩], waiting := [1] } }

theorem test_witness_mount_requests :
    (∃ r ∈ sWaiting.mount.requests, r.font = 3) ∧ (∀ r ∈ sWaiting.mount.requests, r.font ≠ 4) ∧
    sWaiting.mount.requests.length < 8 ∧ (∀ r ∈ (List.range 8).map (fun n => (⟨n, none, []⟩ : MountRequest)), r.font ≠ 9) ∧
    8 ≤ ((List.range 8).map fun n => (⟨n, none, []⟩ : MountRequest)).length ∧
    sWaiting.mount.requests.Pairwise (fun a b => a.font ≠ b.font) ∧
    (1 ∈ sWaiting.mount.waiting ∧ sWaiting.jobs[1].waitedFont = some 3) ∧
    (settle 0 s0).mount.requests = [] ∧ (settle 0 sWaiting).mount.requests.map (·.font) = [3, 5] ∧
    (settle 0 sWaiting).mount.pos[0].st = .empty := by decide
theorem test_suggestions_in_order : (settle 0 sWaiting).mount.requests.map (·.suggested) = [some 0, some 1] := by decide
theorem test_waiters_released :
    (releaseWaiters 3 sWaiting).jobs[0].state = .queued ∧ (releaseWaiters 3 sWaiting).jobs[1].state = .queued ∧
    (releaseWaiters 3 sWaiting).mount.requests.map (·.font) = [5] := by decide

/-- Six positions with strips, three of them pinned. -/
def sOccupied (pins : Nat) : State :=
  { sWaiting with mount := { sWaiting.mount with pos := Vector.ofFn fun i => ⟨.unknown (20 + i.val), pins, 9 - i.val⟩ } }

theorem test_witness_suggestion_by_use :
    (∀ p : Pos, (settle 0 (sOccupied 0)).mount.pos[p].st ≠ .empty) ∧ (settle 0 (sOccupied 0)).mount.pos[5].pins = 0 ∧
    (∀ p : Pos, (settle 0 (sOccupied 1)).mount.pos[p].pins ≠ 0) ∧
    (settle 0 (sOccupied 0)).mount.requests.map (·.suggested) = [some 5, some 4] ∧
    (settle 0 (sOccupied 1)).mount.requests.map (·.suggested) = [none, none] := by decide

theorem test_witness_checks :
    (sJob .composed).jobs[0].state = .composed ∧ (∀ b ∈ (sJob .composed).buffer, b.job ≠ 0) ∧
    (sJob .composed).jobs[0].mode = .set ∧ (sJob .composed).jobs[0].delivered = (sJob .composed).jobs[0].composed ∧
    (∀ g ∈ (sJob .cancelled).film.take, g.job ≠ 0) ∧ (sJob .cancelled).jobs[0].state = .cancelled ∧
    (∃ g ∈ sTake.film.take, g.job = 0) ∧
    ({ job .composed with mode := .proofThenSet, phase := .proof } : Job).phase = .proof ∧
    ({ job .composed with mode := .proofOnly } : Job).mode = .proofOnly := by decide
theorem test_proof_complete_awaits_release :
    (checkJob 0 (withJob { job .composed with mode := .proofThenSet, phase := .proof })).jobs[0].state = .awaitRelease := by
  decide

theorem test_witness_line_exposed :
    imgRecord (sElement none none) = some ⟨0, some ⟨1, ctx1, 110, [element1], none, false, Config.noExc⟩, .busy, .notDue⟩ ∧
    [element1].length ≤ ({ (sElement none none).imaging with elem := 1 } : Imaging).elem ∧
    sTake.film.take.getLast? = some segment ∧ segment.job = 0 ∧ segment.last + 1 = 4 ∧ segment.last + 1 ≠ 1 ∧
    (sElement none none).jobs[0].state = .free := by decide

/-- A line of job 0 with a vertical move. -/
def moving (line : Nat) (move : Int) : TextLine := ⟨line, ctx1, move, [], none, false, Config.noExc⟩

/-- A roll of 864,000 counts, with P, HW, CUTPOS and the take as given. -/
def sRoll (p hw cutpos : Nat) (take : List Segment) : State :=
  { sTake with film := { sTake.film with p := p, hw := hw, cutpos := cutpos, take := take } }

/-- One of the three cuts of a line's move goes first, or the line is moved: R167 to R170. -/
theorem test_line_moves :
    let film (line : Nat) (move : Int) (s : State) := (beginRecord ⟨0, some (moving line move), .busy, .notDue⟩ s).film
    (film 9 110 (sRoll 1000 1000 0 (List.replicate 16 segment))).cut = some (.advancingToCut, .segments) ∧
    (film 4 110 (sRoll 400000 400000 0 [segment])).cut = some (.advancingToCut, .length) ∧
    (film 4 110 (sRoll 863400 863400 855000 [segment])).cut = some (.advancingToCut, .filmOut) ∧
    (film 4 110 (sRoll 863400 863400 863400 [])).filmOut = true ∧
    (film 4 110 (sRoll 1000 1000 0 [segment])).p = 1110 ∧
    (film 4 (-100) (sRoll 1000 1000 0 [segment])).p = 900 ∧
    (film 4 (-100) (sRoll 1000 1000 950 [segment])).p = 950 ∧
    (film 4 (-100) (sRoll 900 1000 950 [segment])).p = 900 := by decide

theorem test_witness_line_move :
    (List.replicate 16 segment).length = 16 ∧ segment.last + 1 ≠ 9 ∧ [segment] ≠ [] ∧
    (s0.settings.maxTake : Int) < 400110 - 0 ∧ (864000 : Int) - 863510 < s0.settings.cutReserve ∧
    ¬ (864000 : Int) - 1110 < s0.settings.cutReserve ∧ (0 : Int) < 110 ∧
    ((max 0 (1000 - s0.settings.reverseLimit) : Nat) : Int) ≤ 1000 + -100 ∧ (1000 : Int) + -100 < (950 : Nat) ∧
    (imgRecord { s0 with buffer := [⟨0, some (moving 4 110), .busy, .notDue⟩] }).isSome = true ∧
    s0.imaging.latched = s0.imaging.written := by decide

theorem test_witness_delivery :
    (∃ g ∈ sTake.film.take, g.job = 0) ∧ ¬ (∃ g ∈ sTake.film.take, g.job = 1) ∧ (∀ b ∈ sTake.buffer, b.job ≠ 0) ∧
    sTake.jobs[0].state = .composed ∧ sTake.jobs[0].imagingDue = true ∧
    ({ sTake with jobs := (sJob .cancelled).jobs } : State).jobs[0].state = .cancelled := by decide
theorem test_delivery_counts :
    (deliver { sTake with jobs := (sJob .composing).jobs }).jobs[0].delivered = 3 := by decide

theorem test_witness_spoil :
    ((sTake.film.take.map fun g => (g.job, g.first, g.restart)).find? fun e => decide (e.1 = 0)) = some (0, 1, ctx1) ∧
    sTake.jobs[0].state ≠ .cancelled ∧ sTake.jobs[0].state ≠ .free ∧
    ({ sTake with jobs := (sJob .cancelled).jobs } : State).jobs[0].state = .cancelled ∧
    ((sTake.film.take.map fun g => (g.job, g.first, g.restart)).find? fun e => decide (e.1 = 1)) = none ∧
    (∀ b ∈ sTake.buffer, b.job ≠ 1) ∧ sTwoQueued.jobs[0].state = .queued := by decide
/-- R76: the flush itself selects, so that a rewound job is composing before a strip that frees another is taken. -/
theorem test_spoil_selects :
    (spoil sTake).jobs[0].state = .composing ∧ (spoil sTake).jobs[0].saved = some ctx1 ∧
    (spoil sTake).links[0].flags.getLsbD 6 = true := by decide

theorem test_witness_bytes_not_stored :
    Listening 0 s0 ∧ (0x11 : Byte) ∉ ([0xA5, 0x01, 0x18, 0xE7] : List Byte) ∧
    (∀ f, (sLink fun l => { l with kept := some ⟨0x36, []⟩ }).links[0].kept = some f → f.type ≠ 0x11) := by
  refine ⟨⟨by decide, by decide⟩, by decide, ?_⟩
  intro f h
  have h : some (⟨0x36, []⟩ : Frame) = some f := h
  cases h
  decide

/-- R86: strip code 0 is reported, and gives UNKNOWN. -/
theorem test_strip_in_code_zero : got (.stripIn 2 0) sFont (fun t => t.mount.pos[2].st) = some (.unknown 0) := by decide

/-- R1: each byte of a RULE run advances the text offset. -/
theorem test_rule_run_offset :
    (match glyphRun (sGated true true) (job .composing) 3
        { build1 none with ctx := { ctx1 with fmt := { Config.house with font := 3 } } } with
      | .go b => some (b.ctx.offset, b.ctx.runBytes)
      | _ => none) = some (3, 3) := by decide

/-! ## Frames sent, and words broken -/

/-- R24: a frame's check byte makes the sum of length, type, payload and check 0. -/
theorem test_sent_frame_checked :
    ((Link.enqueue ⟨0x80, [0x36, 0]⟩ (s0.links[0])).sending.map fun b => (b, (b.drop 1).foldl (· + ·) 0)) =
      some ([0xA5, 0x03, 0x80, 0x36, 0x00, 0x47], 0) := by decide

/-- Letters of font 3 at 10 points, with their widths in width units. -/
def lettersOf (ws : List (Byte × Nat)) : List Item :=
  ws.map fun c => ⟨.glyph ⟨c.1, c.1, 3, 10, 50 * c.2⟩, ⟨ctx1, false⟩⟩

/-- "hyphenation" with the widths of the worked example in 07. -/
def hyphenation : List Item := lettersOf (wordHyphenation.zip [26, 23, 26, 26, 21, 26, 22, 16, 13, 24, 26])

/-- The same with a discretionary mark after its letter a. -/
def hyphenationMarked : List Item := hyphenation.take 7 ++ [⟨.mark 3 10, ⟨ctx1, false⟩⟩] ++ hyphenation.drop 7

/-- The four words of the example's line 9, of 487 wu, and its fourth space. -/
def line9 : List LineWord :=
  let word (sp : Option Space) (w : Nat) : LineWord := ⟨sp, [⟨.glyph ⟨0x78, 0x78, 3, 10, 50 * w⟩, ⟨ctx1, false⟩⟩]⟩
  [word none 120, word (some space1) 120, word (some space1) 120, word (some space1) 127]

/-- Font 3 with hyphens of 16 wu, and a dictionary. -/
def sHyphen (d : List DictEntry) : State :=
  { sGated true true with
    dir := { (sGated true true).dir with tables := s0.dir.tables.set 0 ⟨Vector.replicate 96 16, true⟩ }
    dict := put s0.dict (bucketOf wordHyphenation) d }

def offered9 (d : List DictEntry) (is : List Item) : Option Candidate :=
  offeredBreak (sHyphen d) Config.house shape1 line9 (some space1) is

/-- "One word, four answers" (07). -/
theorem test_one_word_four_answers :
    (candidates (sHyphen []) Config.house hyphenation).map (·.upTo) = [7] ∧ offered9 [] hyphenation = none ∧
    offered9 [⟨wordHyphenation, [2, 6], 0⟩] hyphenation = some ⟨6, some (3, 10), .dictionary⟩ ∧
    offered9 [⟨wordHyphenation, [], 0⟩] hyphenation = none ∧
    candidates (sHyphen []) Config.house hyphenationMarked = [⟨8, some (3, 10), .discretionary⟩] ∧
    offered9 [] hyphenationMarked = none := by decide

/-- "reporter", "government" and "ation" of 07. -/
theorem test_rules_words :
    rulePositions [0x72, 0x65, 0x70, 0x6F, 0x72, 0x74, 0x65, 0x72] = [5] ∧
    rulePositions [0x67, 0x6F, 0x76, 0x65, 0x72, 0x6E, 0x6D, 0x65, 0x6E, 0x74] = [6] ∧
    rulePositions [0x61, 0x74, 0x69, 0x6F, 0x6E] = [1] := by decide

/-- The shrunk line of 06: three spaces, D = 310. -/
theorem test_shrink_example :
    setLine .justify 34560 32950
      [⟨480, 720, 1440, 12, ⟨ctx1, false⟩⟩, ⟨400, 600, 1200, 10, ⟨ctx1, false⟩⟩, ⟨400, 600, 1200, 10, ⟨ctx1, false⟩⟩] =
      ⟨[603, 503, 504], 0⟩ := by decide

theorem test_witness_shares :
    let sp := [space1, space1]
    sp ≠ [] ∧ (∀ q ∈ sp, q.min ≤ q.norm ∧ q.norm ≤ q.max) ∧
    (1000 + sumNorm sp ≤ 2501 ∧ 2501 ≤ 1000 + sumMax sp) ∧ (2001 < 1000 + sumNorm sp ∧ 1000 + sumMin sp ≤ 2001) ∧
    ¬ (999 < 1000 + sumMin ([] : List Space) ∧ 1000 ≤ 999) ∧ 999 < 1000 := by decide

theorem test_witness_candidates :
    (∃ i ∈ List.range hyphenationMarked.length, (hyphenationMarked[i]?.map (·.piece)) = some (.mark 3 10)) ∧
    markCandidates hyphenationMarked ≠ [] ∧ markCandidates hyphenation = [] ∧ hardCandidates hyphenation = [] ∧
    hardCandidates (lettersOf [(0x61, 20), (0x2D, 20), (0x62, 20)]) = [⟨2, none, .hardHyphen⟩] ∧
    (hyphenation.head?.bind Item.letter).isSome = true ∧ (hyphenation.getLast?.bind Item.letter).isSome = true ∧
    Config.house.hyphenation = true ∧ 2 ≤ hyphenation.length ∧
    (∀ i ∈ hyphenation, i.letter.isSome = true ∧ mayHyphenate (sHyphen []) ((i.letter.map (·.2.font)).getD 99) = true) ∧
    mayHyphenate s0 3 = false := by decide

/-! ## The line build -/

/-- A line of 144 wu with "hyphenation" read after some words, at a consecutive-hyphen count. -/
def bWide (ws : List LineWord) (hyphens : Nat) : Build :=
  { build1 (some { shape1 with measure := 720 }) with
    ctx := { ctx1 with hyphens := hyphens }, words := ws, cur := hyphenation, lastSize := some 10 }

/-- One letter of 10 wu, a word that leaves room for "hyphena-". -/
def shortWord : LineWord := ⟨none, lettersOf [(0x61, 10)]⟩

/-- A build reading that word's successor with 190 wu of room and no room for all of it. -/
def bFour (hyphens : Nat) : Build :=
  { bWide [shortWord] hyphens with shape := some { shape1 with measure := 960 }, space := some space1 }

def sh720 : Shape := { shape1 with measure := 720 }
def sh960 : Shape := { shape1 with measure := 960 }
def e9 : List DictEntry := [⟨wordHyphenation, [2, 6], 0⟩]

theorem test_witness_word_too_wide :
    offeredBreak (sHyphen e9) Config.house sh720 [] none hyphenation = some ⟨6, some (3, 10), .dictionary⟩ ∧
    offeredBreak (sHyphen e9) Config.house sh960 [shortWord] (some space1) hyphenation =
      some ⟨7 - 1, some (3, 10), .dictionary⟩ ∧
    ((bFour 3).ctx.fmt.ladder ≠ 0 ∧ (bFour 3).ctx.fmt.ladder ≤ (bFour 3).ctx.hyphens) ∧
    ¬ ((bFour 2).ctx.fmt.ladder ≠ 0 ∧ (bFour 2).ctx.fmt.ladder ≤ (bFour 2).ctx.hyphens) ∧
    offeredBreak (sHyphen [⟨wordHyphenation, [], 0⟩]) Config.house sh960 [shortWord] (some space1) hyphenation = none ∧
    isTextFont (sHyphen []) 3 = true ∧ isTextFont s0 3 = false ∧
    offeredBreak s0 Config.house sh720 [] none hyphenation = none := by decide

/-- R106: the ladder's DEFAULT closes the line before the word, and marks it. -/
theorem test_ladder_default :
    (match wordTooWide (sHyphen e9) (job .composing) (bFour 3) sh960 with
      | .stop r => some r.exc.kinds.h
      | _ => none) = some true ∧
    (match wordTooWide (sHyphen e9) (job .composing) (bFour 2) sh960 with
      | .stop r => some r.exc.kinds.h
      | _ => none) = some false := by decide

theorem test_witness_forced_break :
    let ends (m : Nat) : Bool := decide (1 ≤ m) && decide (((hyphenation[m - 1]?).map fun i => i.piece.isGlyph) = some true)
    let width (m : Nat) : Nat := ((hyphenation.take m).map fun i => i.piece.width).sum
    (ends 7 = true ∧ width 7 ≤ 12 * 720 ∧ (hyphenation.take 7).length ≤ 160 ∧ 12 * 60 < width 1 ∧ ends 1 = true) ∧
    (∀ m ∈ List.range 12, 7 < m → ends m = true → 12 * 720 < width m) := by decide

theorem test_witness_filling :
    (bFour 0).cur ≠ [] ∧ (build1 (some shape1)).cur = [] ∧ (bFour 0).lastSize = some 10 ∧ (bFour 0).shape = some sh960 ∧
    (build1 none).lastSize = none ∧
    12 * 960 < 500 + (hyphenation.map fun i => i.piece.width).sum + 400 ∧
    500 + (hyphenation.map fun i => i.piece.width).sum + 400 ≤ 12 * 2880 := by decide

theorem test_witness_close_at_word :
    (1 < 2 ∨ [shortWord].length < 1) ∧ [shortWord].length < 2 ∧ 2 ≤ 2 ∧
    [shortWord, ⟨some space1, hyphenation⟩][2 - 1]? = some ⟨some space1, hyphenation⟩ := by decide

theorem test_witness_ruling :
    ((sHeld .loose 2).jobs[0].decisions.find? fun d => decide (d.line = 1)).isSome = false ∧
    (eight.find? fun d => decide (d.line = 3)).bind (fun d => d.get .loose) = some .ragged ∧
    Config.house.mask.has .loose = false ∧ ({ Config.noExc with l := true } : ExcSet).has .loose = true := by decide

theorem test_witness_missing :
    fontWidth (sHyphen []) 3 0x41 ≠ 0 ∧ fontWidth s0 3 0x41 = 0 := by decide

theorem test_witness_loose_or_set :
    let sp := line9.filterMap (·.before)
    sp ≠ [] ∧ ((sumMax sp - sumNorm sp : Nat) : Int) < ((12 * 2880 : Nat) : Int) - 24350 - sumNorm sp ∧
    ¬ ((sumMax sp - sumNorm sp : Nat) : Int) < ((12 * 2200 : Nat) : Int) - 24350 - sumNorm sp ∧
    closed1.words.filterMap (·.before) = [] ∧ 0 < 12 * (closed1.shape.measure - closed1.shape.indent) := by decide

theorem test_witness_owed_and_preempted :
    (sCompose .running (some .afterLine)).engine.owed = some .afterLine ∧
    (job .composing).textSinceCut = false ∧
    ({ job .composing with textSinceCut := true } : Job).imagingDue = true := by decide
/-! ## The command reader -/

theorem test_witness_reader :
    (build1 none).reading = .text ∧
    ({ build1 none with reading := .letter 3 } : Build).reading = .letter 3 ∧ (0x46 : Byte) ≠ 0x58 ∧ (0x5A : Byte) ≠ 0x58 ∧
    ({ build1 none with reading := .args 3 .w [some 8] 5 65535 } : Build).reading = .args 3 .w [some 8] 5 65535 ∧
    (0x30 ≤ (0x39 : Byte).toNat ∧ (0x39 : Byte).toNat ≤ 0x39) ∧ (0x41 : Byte) ≠ 0x3B ∧ (0x41 : Byte) ≠ 0x2C ∧
    0x39 < (0x41 : Byte).toNat ∧
    ({ build1 none with reading := .letters 3 Config.noExc } : Build).reading = .letters 3 Config.noExc ∧
    (∀ k, ((0x41 : Byte), k) ∉ [((0x4C : Byte), Exc.loose), (0x4F, .overset), (0x48, .ladder), (0x4E, .nobreak), (0x4D, .missing)]) := by
  refine ⟨rfl, rfl, by decide, by decide, rfl, by decide, by decide, by decide, by decide, rfl, ?_⟩
  intro k h
  simp at h

/-- ESC M 400; with an indent: the measure is 800 steps, and the indent is cut to its measure less 360 (R14). -/
theorem test_esc_measure :
    (match runCommand s0 (job .composing)
        { build1 none with ctx := { ctx1 with fmt := { Config.house with indent := 900 } } } 0 .m [some 400] with
      | .go b => some (b.ctx.fmt.measure, b.ctx.fmt.indent)
      | _ => none) = some (800, 440) := by decide

/-! ## Stored settings and start-up -/

theorem test_witness_region :
    regionValid 0 0 [] = false ∧ regionValid 6 (~~~ 6) [1, 2, 3] = true ∧ regionValid 6 0 [1, 2, 3] = false ∧
    regionValid 0 0xFFFF (List.replicate 256 0) = true := by decide

theorem test_witness_region_loaded :
    ((⟨settingsImage s0, 0, 0⟩ : SettingsRegion).contents = settingsImage s0) ∧ SettingsSound s0.settings := by
  refine ⟨rfl, ?_, by decide⟩
  intro id lo hi h
  have hid : id ≤ 41 := by
    by_contra hc
    simp only [not_le] at hc
    have : settingRange id = none := by
      unfold settingRange
      split <;> first | omega | rfl
    simp [this] at h
  have key : ∀ i : Fin 42, ∀ p ∈ settingRange i.val, p.1 ≤ s0.settings.get i.val ∧ s0.settings.get i.val ≤ p.2 := by decide
  exact key ⟨id, by omega⟩ (lo, hi) h

theorem test_witness_setting_ranges :
    settingRange 37 = some (720, 5760) ∧ (37 : Nat) ∉ [10, 11, 12, 16, 18, 19, 21, 22, 23, 38, 39] ∧
    (s0.settings.set 37 720).maxTake = 7200 ∧ (s0.settings.set 16 13).house.size = 12 ∧
    (s0.settings.set 38 1440).cutReserve = 1440 ∧ (s0.settings.set 10 2047).high = 2048 := by decide

/-! ## Imaging and film -/

/-- R156: a strip pulled out of a pinned position in a rescan ends the scan: STOPPED, and no TURRET sent. -/
def sRescan : State := (sReading 0).modPos 0 fun q => { q with pins := 1 }
theorem test_strip_lost_in_scan :
    got (.stripCode 0 none) { sRescan with imaging := { sRescan.imaging with st := .starting } }
      (fun t => (t.imaging.st, t.imaging.stop, t.imaging.move, t.port.length)) =
    some (.stopped, .stripLost, none, sRescan.port.length) := by decide

theorem test_witness_scan_ended :
    sRescan.imaging.move = some .readStrip ∧ sRescan.imaging.curPos = some 0 ∧ 0 < sRescan.mount.pos[0].pins ∧
    sRescan.mount.pos[0].st ≠ .empty ∧
    (takeStripIn 4 9 { sReading 4 with imaging := { (sReading 4).imaging with st := .starting } }).imaging.st = .starting := by
  decide

theorem test_witness_reclassify :
    (sFont.modPos 2 fun q => { q with st := .unknown 7 }).mount.pos[2].st = .unknown 7 ∧ fontOfStrip sFont 7 = some 3 ∧
    (∃ q : Pos, sFont.mount.pos[q].font = some 3) ∧ ¬ (∃ q : Pos, s0.mount.pos[q].font = some 3) ∧
    fontOfStrip sFont 9 = none := by decide

theorem test_witness_fault_codes :
    (StopReason.lampFail, 8) ∈ [(StopReason.turretFault, 4), (.lensFault, 5), (.lampFail, 8)] ∧
    (StopReason.gate, 3) ∈ [(StopReason.noFilm, 1), (.gate, 3)] ∧
    (sMove .idle none).imaging.st = .idle ∧ (sMove .setting none).imaging.st = .setting ∧
    (sStopped .filmOut .done false).imaging.st = .stopped ∧ s0.imaging.st = .starting := by decide

/-- R155: the third low reading stops the sequencer; the second goes on. -/
theorem test_third_low_reading :
    ((flashEnded 0 { sMove .setting none with imaging := { (sMove .setting none).imaging with lowRun := 2 } }).imaging.stop,
      (flashEnded 0 { sMove .setting none with imaging := { (sMove .setting none).imaging with lowRun := 1 } }).imaging.lowRun) =
    (.lampFail, 2) := by decide

theorem test_witness_resume :
    s0.film.loaded = false ∧ sTake.film.loaded = true ∧ sTake.film.takeUp = true ∧ sTake.film.doorClosed = true ∧
    sTake.film.filmOut = false ∧ ({ sTake.film with filmOut := true } : Film).filmOut = true ∧
    ({ sTake.film with takeUp := false } : Film).takeUp = false := by decide

theorem test_witness_mounted_once : MountedOnce sFont ∧ FilmSound sTake ∧ FilmSound s0 := by
  simp only [MountedOnce, FilmSound]
  decide

theorem test_witness_mounted_once_reset : MountedOnce s0 := by
  simp only [MountedOnce]
  decide

theorem test_witness_machine : MachineSound s0 := by
  refine ⟨test_witness_mounted_once_reset, ?_, ?_, ⟨?_, by decide, ?_, ?_, ?_, ?_, by decide, ?_⟩, ?_⟩
  · simp only [PinsSound]; decide
  · simp only [BufferSound]; decide
  · decide
  · intro stage h; cases h
  · intro stage why h; cases h
  · intro p h; exact .inr rfl
  · intro l h; cases h
  · intro h; rfl
  · exact ⟨by decide, fun h => by rcases h with h | h <;> cases h⟩

/-- R63: a job preempted with a TEXT record since its last CUT gives one CUT record, and none otherwise. -/
theorem test_preempted_cut :
    let s (since : Bool) : State :=
      { sRush with jobs := put sRush.jobs 0 { sRush.jobs[0] with textSinceCut := since }, queue := ⟨[1], none, []⟩ }
    let seen (t : State) := (t.buffer.length, t.jobs[0].state, t.jobs[1].state, t.queue.resume)
    got .lineBuild (s true) seen = some (1, .queued, .composing, some 0) ∧
    got .lineBuild (s false) seen = some (0, .queued, .composing, some 0) := by decide

/-- Log 48: a QUAD that is the text's last byte closes its line and leaves the end of the text to the next build. -/
theorem test_quad_at_end :
    (match quadByte s0 (job .composing) { build1 (some shape1) with cur := lettersOf [(0x61, 10)], lastSize := some 10 } with
      | .stop ⟨.line c _ _, _⟩ => some c.atEnd
      | _ => none) = some false := by decide

/-- A region whose words are those of its bytes is valid, whatever the bytes; the state at reset is sound throughout. -/
theorem test_witness_valid_region (bytes : List Byte) : regionValid (sum16 bytes) (~~~ sum16 bytes) bytes = true := by
  simp [regionValid]

theorem test_witness_saved_sound : DirectorySound s0.dir ∧ TrimsSound s0.imaging.written ∧ WordsSound s0.dict := by
  refine ⟨⟨?_, ?_, ?_⟩, ?_, ?_⟩
  · decide
  · decide
  · intro k i
    have h : s0.dir.tables[k] = ⟨Vector.replicate 96 0, false⟩ := by
      simp [s0, State.reset, startUp, loadSettingsRegion, Config.emptyDirectory]
    rw [h]
    simp
  · simp only [TrimsSound]; decide
  · intro b e h
    have hb : s0.dict[b] = [] := by simp [s0, State.reset, Config.emptyDictionary]
    rw [hb] at h
    cases h

/-! ## Checks and decisions -/

/-- R83, check 4: a gate written over a MOUNTED font is IN-USE; R29: one written over a gate is not. -/
theorem test_dir_write_gate_over_mounted :
    got (.dirWriteGate 0 3 [0, 4, 10, 0xFF, 0xFF, 1, 2, 3, 4, 5, 6, 7, 8]) sFont (fun t => t.links[0].sending) =
      some (some (envelope 0x80 [0x30, 8])) ∧
    got (.dirWriteGate 0 4 [0, 3, 10, 0xFF, 0xFF, 1, 2, 3, 4, 5, 6, 7, 8]) sFont (fun t => t.links[0].sending) =
      some (some (envelope 0x80 [0x30, 0])) := by decide

theorem test_witness_decisions :
    s0.links[0].hold = false ∧ s0.links[0].sending.isSome = false ∧
    (sLink fun l => { l with hold := true }).links[0].hold = true ∧
    (sLink fun l => { l with sending := some [] }).links[0].sending.isSome = true := by decide
/-- R24, R31: a RESUME takes the place of a HOLD not yet begun. -/
theorem test_resume_replaces_hold :
    let s := (sLink fun l => { l with sending := some [0xA5] }).decideHold
    (s.links[0].slot, s.decideResume.links[0].slot, s.decideResume.links[0].holdTimer) =
      (some (.hold 200), some .resume, none) := by decide

theorem test_witness_line_ends :
    (build1 none).shape = none ∧ (build1 (some shape1)).shape = some shape1 ∧ (build1 (some shape1)).cur = [] := by decide
/-- R5: a QUAD with no line adds the leading up to +999 and resets the count, and a SPREAD does neither. -/
theorem test_empty_quad_and_spread :
    let b : Build := { build1 none with ctx := { ctx1 with pendingV := 900, hyphens := 2 } }
    let read (p : Progress) : Option (Int × Nat) := match p with
      | .go c => some (c.ctx.pendingV, c.ctx.hyphens)
      | _ => none
    read (quadByte s0 (job .composing) b) = some (999, 0) ∧ read (spreadByte s0 (job .composing) b) = some (900, 2) := by
  decide

/-- R7: ESC W 4; names one space and leaves the others. -/
theorem test_short_argument_list :
    (match runCommand s0 (job .composing) (build1 none) 0 .w [some 4] with
      | .go b => some (b.ctx.fmt.spMin, b.ctx.fmt.spNorm, b.ctx.fmt.spMax)
      | _ => none) = some (4, 12, 24) := by decide

/-- R92: the flash sequence stays at its limit. -/
theorem test_flash_sequence :
    [0, 4294967294, 4294967295].map (fun n =>
      let t := countFlash 2 { s0 with mount := { s0.mount with flashSeq := n } }
      (t.mount.flashSeq, t.mount.pos[(2 : Pos)].lastUse)) =
    [(1, 1), (4294967295, 4294967295), (4294967295, 4294967295)] := by decide

/-! ## The text read, and its glyphs placed -/

/-- "A", a fixed space, "B", an interword space and "C", with a space of 500 as set. -/
def threeGlyphs : List LineWord :=
  let glyph (c : Byte) : Item := ⟨.glyph ⟨c, c, 3, 10, 1000⟩, ⟨ctx1, false⟩⟩
  [⟨none, [glyph 0x41, ⟨.fixed 600, ⟨ctx1, false⟩⟩, glyph 0x42]⟩, ⟨some space1, [glyph 0x43]⟩]

/-- R114, R182: the left edges and the space marks, from an indent of 20 steps and an offset of 7. -/
theorem test_placed :
    ((placeLine { shape1 with indent := 20 } ⟨[500], 7⟩ threeGlyphs).map fun g => (g.glyph.code, g.edge, g.space)) =
    [(0x41, 247, false), (0x42, 1847, true), (0x43, 3347, true)] := by decide
theorem test_first_space_width : firstSpaceWidth ⟨[878], 0⟩ [space1] = some 17 ∧ firstSpaceWidth ⟨[], 0⟩ [] = none := by decide
theorem test_witness_placed :
    (threeGlyphs.flatMap fun w => (w.before.toList.map fun _ => none) ++ w.items.map fun i => some i.piece)[4]? =
      some (some (.glyph ⟨0x43, 0x43, 3, 10, 1000⟩)) := by decide

theorem test_witness_bytes_by_class :
    (build1 none).reading = .text ∧ (build1 none).checked = false ∧ (build1 none).shape = none ∧
    (0x21 ≤ (0x21 : Byte).toNat ∧ (0x7F : Byte).toNat ≤ 0x7F) ∧ ctx1.offset = 0 ∧ ({ ctx1 with offset := 3 } : Context).offset ≠ 0 ∧
    lineStartCheck s0 0 0 true = .fontRange ∧ lineStartCheck (sGated true true) 3 2 true = .pass 3 none none ∧
    lineStartCheck (sGated true true) 3 3 true = .fontDenied ∧ lineStartCheck (sGated false true) 3 0 true = .wait 3 := by decide

/-- R81, R68: the first glyph in a font that fails the line-start check reports its own offset; R11: at offset 0 it is 0. -/
theorem test_line_start_fault :
    readByte s0 (job .composing) { build1 none with ctx := { ctx1 with offset := 5 } } 0x41 =
      .stop ⟨.fault .fontRange 5, ⟨Config.noExc, Config.noExc⟩⟩ ∧
    buildLine s0 (job .composing) ctx1 = ⟨.fault .fontRange 0, ⟨Config.noExc, Config.noExc⟩⟩ := by decide

/-- R3, R10, R100: an opening fixed space takes the line's shape and the pending move. -/
theorem test_fixed_space :
    (match readByte s0 (job .composing) { build1 none with checked := true, ctx := { ctx1 with pendingV := -9 } } 0x1E with
      | .go b => some (b.cur.map (·.piece), b.shape.map (·.pendingV), b.ctx.pendingV)
      | _ => none) = some ([.fixed 600], some (-9), 0) := by decide

/-! ## The engine's state and a test's text -/

theorem test_witness_engine_entered :
    (s0.engine.st = .idle ∧ ∀ k : JobId, s0.jobs[k].state ≠ .composing) ∧ s0.engine.scanEnded = false ∧
    (sJob .queued).jobs[0].imagingDue = true ∧ (sJob .queued).jobs[0].saved = none := by decide
theorem test_engine_entered :
    let s (ended : Bool) (n : Nat) : State :=
      { sJob .queued with engine := { s0.engine with scanEnded := ended }, buffer := List.replicate n ⟨1, none, .due, .notDue⟩ }
    [(false, 0), (true, 63), (true, 64)].map (fun x => (selectJob 0 (s x.1 x.2)).engine.st) =
      [.waitScan, .running, .waitBuffer] ∧ (selectJob 0 (s true 0)).engine.work = some ctx1 := by decide

theorem test_witness_test_text :
    ({ job .queued with test := .rule, pattern := .rule 63 } : Job).pattern = .rule 63 ∧ (63 : Nat) ≤ 63 ∧
    ({ job .queued with test := .align, pattern := .align [0, 63] } : Job).pattern = .align [0, 63] ∧
    (∀ g ∈ [0, (63 : Nat)], g ≤ 63) := by decide
/-- R161: the count at 10 points and 20 wu over 2,880 steps; R161 with a gate's number: 1 (log 52). -/
theorem test_rule_count :
    ruleCount (sGated true true) Config.house 3 = 34 ∧ ruleCount (sGated true true) Config.house 4 = 1 ∧
    ruleCount (sGated true true) { Config.house with measure := 14400, size := 6 } 3 = 160 := by decide

/-- R137, R142: a cancellation releases its records' pins record by record, in composition order (log 44). -/
theorem test_cancel_unlocks_in_order :
    let line (n : Nat) (p : Pos) : Record := 
      ⟨0, some ⟨n, ctx1, 110, [{ element1 with pos := some p }], none, false, Config.noExc⟩, .due, .notDue⟩
    let s : State :=
      { sJob .composed with
        buffer := [line 1 4, line 2 1], mount := { s0.mount with pos := Vector.replicate 6 ⟨.empty, 1, 0⟩ } }
    (cancelRecords 0 s).port.drop s0.port.length = [.positionUnlock 4, .positionUnlock 1] := by decide

/-! ## Frames made and queued, codes, and lookups -/

theorem test_witness_enqueue :
    let link (f : Link → Link) : Link := (sLink f).links[0]
    (link fun l => { l with sending := some [0xA5] }).sending.isSome = true ∧
    (link id).sending = none ∧ (link id).slot = none ∧ (link id).queue = [] ∧
    (link fun l => { l with slot := some (.hold 65535) }).slot = some (.hold 65535) ∧
    (link fun l => { l with slot := some .resume }).slot = some .resume ∧
    (link fun l => { l with queue := sixteen }).queue = ⟨0x81, []⟩ :: sixteen.tail ∧
    (ReplyCode.unknown, (11 : Byte)) ∈ [(ReplyCode.ok, (0 : Byte)), (.unknown, 11)] := by decide

/-- "Building a frame" (02): the controller's OK reply to CLOSE, whose check byte is 0x6B. -/
theorem test_close_reply_bytes :
    envelope (replyFrame 0x12 .ok []).type (replyFrame 0x12 .ok []).payload = [0xA5, 0x03, 0x80, 0x12, 0x00, 0x6B] := by decide

/-- R24: a frame that meets a busy transmitter waits at the tail, and one that meets a free one is begun. -/
theorem test_enqueue_waits_or_begins :
    let wait : Link := (sLink fun l => { l with sending := some [0xA5], queue := [⟨0x83, []⟩] }).links[0]
    let free : Link := s0.links[0]
    ((wait.enqueue ⟨0x80, [1]⟩).queue, (wait.enqueue ⟨0x80, [1]⟩).sending) = ([⟨0x83, []⟩, ⟨0x80, [1]⟩], some [0xA5]) ∧
    ((free.enqueue ⟨0x80, [1]⟩).queue, (free.enqueue ⟨0x80, [1]⟩).sending) = ([], some [0xA5, 2, 0x80, 1, 0x7D]) := by decide

theorem test_signed_limits : [-32768, -1, 32767].map be2Int = [[0x80, 0], [0xFF, 0xFF], [0x7F, 0xFF]] := by decide

/-- A text of 33 bytes in blocks 0 and 1. -/
def sTwoBlocks : State :=
  { withJob { job .receiving with bytes := 33, firstBlock := some 0, lastBlock := some 1 } with
    store := { Store.start with fresh := 2, links := [(1, none)] } }

theorem test_witness_append_byte :
    sparseWf startLink sText.store.links = true ∧ sText.jobs[0].bytes % 32 = 0 ∧
    sText.store.freeList = 1 :: List.range' 2 2046 ∧ sText.jobs[0].lastBlock ≠ some 1 ∧
    sparseWf startLink sTwoBlocks.store.links = true ∧ sTwoBlocks.jobs[0].bytes % 32 ≠ 0 ∧
    sTwoBlocks.jobs[0].lastBlock = some 1 ∧ Memory.wf [⟨0, 1⟩, ⟨65535, 1⟩] = true := by
  refine ⟨by decide, by decide, ?_, by decide, by decide, by decide, by decide, by decide⟩
  show List.range' 1 (2046 + 1) ++ [] = _
  rw [List.append_nil, List.range'_succ]

theorem test_witness_chain :
    [0, 1].length = (sTwoBlocks.jobs[0].bytes + 31) / 32 ∧ sTwoBlocks.jobs[0].firstBlock = [0, 1].head? ∧
    sTwoBlocks.store.next 0 = some 1 ∧ sTwoBlocks.store.next 1 = none ∧ chainOf sTwoBlocks.store sTwoBlocks.jobs[0] = [0, 1] := by
  decide

theorem test_witness_quiet :
    s0.imaging.st ≠ .idle ∧ (∀ r ∈ s0.buffer, r.proof ≠ .due) ∧ s0.engine.st = .idle ∧ (∀ j : JobId, s0.jobs[j].state ≠ .queued) ∧
    s0.mount.requests = [] ∧ s0.mount.panel = .clear ∧ s0.store.freeCount ≤ 2048 ∧
    s0.film.pendingCut = false ∧ (∀ r ∈ s0.buffer, r.img ≠ .due ∧ r.img ≠ .busy) := by decide

theorem test_witness_directory :
    descAt sFont (63 : Fin 64).val = some sFont.dir.desc[63] ∧ descAt sFont 64 = none ∧
    tableAt sFont (23 : Fin 24).val = sFont.dir.tables[23] ∧
    (∀ k lv st tb dn sb hy nm, descAt sFont 4 ≠ some (.font k lv st tb dn sb hy nm)) ∧
    mountedAt sFont 3 = some 0 ∧ mountedAt sFont 4 = none ∧ sFont.mount.pos[0].font = some 3 := by
  refine ⟨by decide, by decide, by decide, ?_, by decide, by decide, by decide⟩
  intro k lv st tb dn sb hy nm h
  simp [descAt, sFont] at h

theorem test_witness_strips_distinct : StripsDistinct s0 ∧ StripsDistinct sFont := by
  have only : ∀ n : Fin 64, sFont.dir.desc[n].strip.isSome = true → n = 3 := by decide
  have none : ∀ n : Fin 64, s0.dir.desc[n].strip = none := by decide
  refine ⟨fun m n _ c h => ?_, fun m n hmn c h h' => ?_⟩
  · rw [none m] at h; cases h
  · exact hmn ((only m (by rw [h]; rfl)).trans (only n (by rw [h']; rfl)).symm)

/-- R79: the first and the last entry of a width table are those of the codes 0x20 and 0x7F. -/
theorem test_width_entries :
    let t : WidthTable := ⟨(Vector.replicate 96 0).set 0 7 |>.set 95 9, true⟩
    let s : State := { sFont with dir := { sFont.dir with tables := sFont.dir.tables.set 0 t } }
    ((0x20 : Byte).toNat, (0x7F : Byte).toNat) = (0x20 + (0 : Fin 96).val, 0x20 + (95 : Fin 96).val) ∧
    [(0x20 : Byte), 0x21, 0x7F].map (fontWidth s 3) = [7, 0, 9] ∧ fontSubstitute s 3 = 0x2A ∧ fontDensity s 3 = 128 ∧
    isTextFont s 3 = true ∧ isTextFont s 4 = false ∧ mayHyphenate s 3 = true := by decide

theorem test_witness_letters :
    (∀ c ∈ [(0x41 : Byte), 0x5A, 0x61, 0x7A], isLetter c = true) ∧
    (∀ c ∈ [(0x40 : Byte), 0x5B, 0x60, 0x7B], isLetter c = false) ∧
    foldWord [0x41, 0x5A, 0x61, 0x7A] = [0x61, 0x7A, 0x61, 0x7A] ∧ 0x61 ≤ (0x61 : Byte).toNat ∧ (0x7A : Byte).toNat ≤ 0x7A := by
  decide

/-- "Building a bucket" (07): "ties" hashes through 20, 117, 48 and 227. -/
theorem test_hash_ties :
    [[(0x74 : Byte)], [0x74, 0x69], [0x74, 0x69, 0x65], [0x74, 0x69, 0x65, 0x73]].map (fun w => (bucketOf w).val) =
      [20, 117, 48, 227] := by decide

/-- "A proof line" (11): line 14 in columns 1 to 5, tag 517, and a page number; the limits of a column. -/
theorem test_decimal_columns :
    decimalRight 5 14 = [0x20, 0x20, 0x20, 0x31, 0x34] ∧ decimalRight 5 517 = [0x20, 0x20, 0x35, 0x31, 0x37] ∧
    decimalRight 1 0 = [0x30] ∧ decimalRight 5 99999 = List.replicate 5 0x39 := by decide

end Sys2Proof.Tests
end

/-! PROOFS. The reading of the job code (01): a byte read outside a command, by its class (R1, R6). -/

namespace Sys2Proof.Proofs

open Sys2Proof.Machine

/-- A byte read outside a command is acted on by its class, once the text offset has been advanced (R1). -/
theorem readByte_of_text (s : State) (j : Job) (b : Build) (c : Byte) (outside : b.reading = .text) :
    readByte s j b c = textByte s j b.advance c := by
  have advancedOutside : b.advance.reading = .text := outside
  simp only [readByte, advancedOutside]

/-- A byte that is neither one of the six codes acted on by themselves nor a glyph leaves the build as it is
(table of 01, "Byte classes"). -/
theorem textByte_of_no_class (s : State) (j : Job) (b : Build) (c : Byte)
    (quad : c.toNat ≠ 0x0A) (spread : c.toNat ≠ 0x0B) (esc : c.toNat ≠ 0x1B) (fixed : c.toNat ≠ 0x1E)
    (mark : c.toNat ≠ 0x1F) (space : c.toNat ≠ 0x20) (glyph : ¬ (0x21 ≤ c.toNat ∧ c.toNat ≤ 0x7F)) :
    textByte s j b c = .go b := by
  simp only [textByte, if_neg quad, if_neg spread, if_neg esc, if_neg fixed, if_neg mark, if_neg space, if_neg glyph]

/-- The ranges of R6 meet no other class of the table. -/
theorem textByte_of_ignored (s : State) (j : Job) (b : Build) (c : Byte)
    (ignored : c.toNat ≤ 0x09 ∨ (0x0C ≤ c.toNat ∧ c.toNat ≤ 0x1A) ∨ c.toNat = 0x1C ∨ c.toNat = 0x1D ∨ 0x80 ≤ c.toNat) :
    textByte s j b c = .go b := by
  apply textByte_of_no_class <;> omega

/-- Settles O43: the byte read advances the offset, and its class leaves the advanced build as it is. -/
theorem ignoredByteAdvances : Obligations.IgnoredByteAdvances := by
  intro s j b c outside ignored
  calc readByte s j b c
    _ = textByte s j b.advance c := readByte_of_text s j b c outside
    _ = .go b.advance := textByte_of_ignored s j b.advance c ignored

end Sys2Proof.Proofs

/-! PROOFS. Link reset and break condition (02): what a reset does to its link and the desk's RECEIVING job (R35), and a
line that stays at spacing (R36). -/

namespace Sys2Proof.Proofs

open Sys2Proof.Machine

/-! ## The RECEIVING job of a desk abandoned (R45) -/

/-- The search of the job records finds the lowest-numbered RECEIVING job of the desk. -/
theorem abandonReceiving_of_receiving (d : Desk) (j : JobId) (why : JobReason) (s : State) (h : Receiving d j s) :
    abandonReceiving d why s = abandon d j why s := by
  simp only [abandonReceiving, (receivingJob_some d j s).mpr h]

/-- A desk without a RECEIVING job abandons nothing (R45). -/
theorem abandonReceiving_of_notReceiving (d : Desk) (why : JobReason) (s : State) (h : NotReceiving d s) :
    abandonReceiving d why s = s := by
  simp only [abandonReceiving, (receivingJob_none d s).mpr h]

/-- A change of a link leaves open which job of a desk is RECEIVING. -/
theorem receiving_modLink (d e : Desk) (j : JobId) (f : Link → Link) (s : State) :
    Receiving d j (s.modLink e f) ↔ Receiving d j s := by
  simp only [Receiving, State.modLink_jobs]

theorem notReceiving_modLink (d e : Desk) (f : Link → Link) (s : State) :
    NotReceiving d (s.modLink e f) ↔ NotReceiving d s := by
  simp only [NotReceiving, State.modLink_jobs]

/-! ## The reset of a link (R35) -/

/-- A reset clears the link and abandons the desk's RECEIVING job with LINK-RESET. -/
theorem resetLink_of_receiving (d : Desk) (j : JobId) (s : State) (h : Receiving d j s) :
    resetLink d s = abandon d j .linkReset (s.modLink d Link.cleared) :=
  abandonReceiving_of_receiving d j .linkReset _ ((receiving_modLink d d j Link.cleared s).mpr h)

theorem resetLink_of_notReceiving (d : Desk) (s : State) (h : NotReceiving d s) :
    resetLink d s = s.modLink d Link.cleared :=
  abandonReceiving_of_notReceiving d .linkReset _ ((notReceiving_modLink d d Link.cleared s).mpr h)

/-- A reset stops the silence timer, so the timer's restart by the frame that asks for the reset (R33) leaves no trace. -/
theorem resetLink_restartSilence (d : Desk) (s : State) : resetLink d (restartSilence d s) = resetLink d s := by
  have clearedAnyway : (restartSilence d s).modLink d Link.cleared = s.modLink d Link.cleared :=
    State.modLink_modLink d _ Link.cleared s
  simp only [resetLink, clearedAnyway]

/-- LINK-RESET on a link that takes it resets the link, and the reply OK is queued after all of that. -/
theorem exec_linkReset_taken (d : Desk) (s : State) (takes : Takes d s) (allowed : Allowed d 0x3F s) :
    exec (.linkReset d []) s = .next ((resetLink d s).reply d 0x3F .ok []) := by
  have handled : receiveFrame d 0x3F [] s = (resetLink d (restartSilence d s)).reply d 0x3F .ok [] :=
    receiveFrame_handled d 0x3F [] s takes allowed (by decide)
  rw [exec_frame (.linkReset d []) d ⟨0x3F, []⟩ s rfl, handled, resetLink_restartSilence]

/-! ## The break condition (R36) -/

/-- A break condition on a line at marking puts the line at spacing and resets the link. -/
theorem breakLink_of_marking (d : Desk) (s : State) (marking : s.links[d].spacing = false) :
    breakLink d s = resetLink d (s.modLink d fun l => { l with spacing := true }) := by
  simp only [breakLink, marking, Bool.false_eq_true, if_false]

/-- A break that lasts is one break condition. -/
theorem breakLink_of_spacing (d : Desk) (s : State) (spacing : s.links[d].spacing = true) : breakLink d s = s := by
  simp only [breakLink, spacing, if_true]

/-- No byte is received while the line stays at spacing, whatever the receiver's phase. -/
theorem receiveByte_of_spacing (d : Desk) (b : Byte) (s : State) (spacing : s.links[d].spacing = true) :
    receiveByte d s b = s := by
  simp only [receiveByte, spacing, if_true]

theorem receiveBytes_of_spacing (d : Desk) (bytes : List Byte) (s : State) (spacing : s.links[d].spacing = true) :
    receiveBytes d bytes s = s := by
  induction bytes with
  | nil => rfl
  | cons b rest ih =>
    calc receiveBytes d (b :: rest) s
      _ = receiveBytes d rest (receiveByte d s b) := rfl
      _ = receiveBytes d rest s := by rw [receiveByte_of_spacing d b s spacing]
      _ = s := ih

/-- A break condition on a line at marking abandons the desk's RECEIVING job, with the line at spacing and the link
cleared. -/
theorem exec_breakCondition_of_receiving (d : Desk) (j : JobId) (s : State) (marking : s.links[d].spacing = false)
    (h : Receiving d j s) :
    exec (.breakCondition d) s =
      .next (abandon d j .linkReset (s.modLink d fun l => { l with spacing := true }.cleared)) := by
  rw [exec_breakCondition, breakLink_of_marking d s marking,
    resetLink_of_receiving d j _ ((receiving_modLink d d j _ s).mpr h), State.modLink_modLink]

theorem exec_breakCondition_of_notReceiving (d : Desk) (s : State) (marking : s.links[d].spacing = false)
    (h : NotReceiving d s) :
    exec (.breakCondition d) s = .next (s.modLink d fun l => { l with spacing := true }.cleared) := by
  rw [exec_breakCondition, breakLink_of_marking d s marking,
    resetLink_of_notReceiving d _ ((notReceiving_modLink d d _ s).mpr h), State.modLink_modLink]

/-- Settles O8: a reset and a break both come to the cleared link and the abandonment of the RECEIVING job, if there is
one; at spacing no command that brings bytes changes the state. -/
theorem linkResetAndBreakTaken : Obligations.LinkResetAndBreakTaken := by
  refine ⟨?linkReset, ?breakCondition⟩
  case linkReset =>
    intro d s takes allowed
    refine ⟨fun j receiving => ?_, fun idle => ?_⟩
    · rw [exec_linkReset_taken d s takes allowed, resetLink_of_receiving d j s receiving]
      rfl
    · rw [exec_linkReset_taken d s takes allowed, resetLink_of_notReceiving d s idle]
      rfl
  case breakCondition =>
    intro d s
    refine ⟨fun j => exec_breakCondition_of_receiving d j s, exec_breakCondition_of_notReceiving d s,
      fun spacing => ⟨?again, fun bytes => ?bytes, fun c f carries => ?frame⟩, exec_returnToMarking d s⟩
    case again => rw [exec_breakCondition, breakLink_of_spacing d s spacing]
    case bytes => rw [exec_badFrame, receiveBytes_of_spacing d bytes s spacing]
    case frame =>
      rw [exec_frame c d f s carries, receiveFrame, receiveBytes_of_spacing d _ s spacing]

end Sys2Proof.Proofs

/-! PROOFS. Justification (06): the units handed out one each from the left, and the LOOSE line (R111). -/

namespace Sys2Proof.Proofs

open Sys2Proof.Machine

/-! ## Units handed out from the left (R110, R111) -/

@[simp] theorem giveUnits_nil (n : Nat) : giveUnits n [] = [] := by rw [giveUnits]

/-- A width without room is passed over. -/
@[simp] theorem giveUnits_cons_full (n w : Nat) (rest : List (Nat × Bool)) :
    giveUnits n ((w, false) :: rest) = w :: giveUnits n rest := by
  rw [giveUnits, Bool.false_and, if_neg Bool.false_ne_true]

/-- A width with room takes one of the units left. -/
@[simp] theorem giveUnits_succ_cons_room (n w : Nat) (rest : List (Nat × Bool)) :
    giveUnits (n + 1) ((w, true) :: rest) = (w + 1) :: giveUnits n rest := by
  simp [giveUnits]

/-- With the units spent, the widths stand. -/
@[simp] theorem giveUnits_zero (l : List (Nat × Bool)) : giveUnits 0 l = l.map (·.1) := by
  induction l with
  | nil => rfl
  | cons entry rest ih => simp [giveUnits, ih]

/-- Where every width has room, the first widths take the units, one each. -/
theorem giveUnits_of_room {α : Type} (width : α → Nat) (l : List α) (n : Nat) :
    giveUnits n (l.map fun q => (width q, true)) = l.mapIdx fun i q => if i < n then width q + 1 else width q := by
  induction l generalizing n with
  | nil => rfl
  | cons q rest ih =>
    cases n with
    | zero => simpa using ih 0
    | succ n => simp [ih n]

/-- Units that do not outnumber the widths with room are all handed out. -/
theorem sum_giveUnits (l : List (Nat × Bool)) (n : Nat) (enough : n ≤ l.countP (·.2)) :
    (giveUnits n l).sum = (l.map (·.1)).sum + n := by
  induction l generalizing n with
  | nil =>
    have spent : n = 0 := by simpa using enough
    rw [spent, giveUnits_zero, Nat.add_zero]
  | cons entry rest ih =>
    obtain ⟨w, room⟩ := entry
    match room, n with
    | false, n => simp [ih n (by simpa using enough), Nat.add_assoc]
    | true, 0 => simp
    | true, n + 1 =>
      have left : (giveUnits n rest).sum = (rest.map (·.1)).sum + n := ih n (by simpa using enough)
      simp only [giveUnits_succ_cons_room, List.map_cons, List.sum_cons, left]
      omega

/-! ## The LOOSE line (R111) -/

/-- The remainder goes to the first spaces, one unit each. -/
theorem overstretch_eq_mapIdx (x : Nat) (sp : List Space) :
    overstretch x sp = sp.mapIdx fun i q =>
      if i < x % sp.length then q.max + x / sp.length + 1 else q.max + x / sp.length :=
  giveUnits_of_room (fun q => q.max + x / sp.length) sp (x % sp.length)

theorem sum_max_add (k : Nat) (sp : List Space) : (sp.map fun q => q.max + k).sum = sumMax sp + sp.length * k := by
  rw [List.sum_map_add, List.map_const', List.sum_replicate, smul_eq_mul, sumMax]

/-- The equal shares and the remainder come to all of the rest. -/
theorem sum_overstretch (x : Nat) (sp : List Space) (spaced : sp ≠ []) : (overstretch x sp).sum = sumMax sp + x := by
  have fewer : x % sp.length < sp.length := Nat.mod_lt x (List.length_pos_iff.mpr spaced)
  have enough : x % sp.length ≤ (sp.map fun q => (q.max + x / sp.length, true)).countP (·.2) := by
    simpa [List.countP_map, Function.comp_def] using fewer.le
  calc (overstretch x sp).sum
    _ = (sp.map fun q => q.max + x / sp.length).sum + x % sp.length := by
      rw [overstretch, sum_giveUnits _ _ enough, List.map_map]
      rfl
    _ = sumMax sp + (sp.length * (x / sp.length) + x % sp.length) := by rw [sum_max_add, Nat.add_assoc]
    _ = sumMax sp + x := by rw [Nat.div_add_mod]

theorem sumNorm_le_sumMax (sp : List Space) (ordered : ∀ q ∈ sp, q.norm ≤ q.max) : sumNorm sp ≤ sumMax sp :=
  List.sum_le_sum ordered

/-- The excess above the stretch capacity is what the room holds beyond the maximum spaces. -/
theorem setLine_justify_of_loose (width glyphs : Nat) (sp : List Space) (spaced : sp ≠ [])
    (ordered : ∀ q ∈ sp, q.norm ≤ q.max) (loose : glyphs + sumMax sp < width) :
    setLine .justify width glyphs sp = ⟨overstretch (width - glyphs - sumMax sp) sp, 0⟩ := by
  have capacity := sumNorm_le_sumMax sp ordered
  have notEmpty : ¬ sp.isEmpty = true := by simpa using spaced
  have notShrunk : ¬ excess width glyphs sp < 0 := by unfold excess; omega
  have notStretched : ¬ (excess width glyphs sp).toNat ≤ sumMax sp - sumNorm sp := by unfold excess; omega
  have rest : (excess width glyphs sp).toNat - (sumMax sp - sumNorm sp) = width - glyphs - sumMax sp := by
    unfold excess; omega
  simp only [setLine, if_neg notEmpty, if_neg notShrunk, if_neg notStretched, rest]

/-- Settles O46: a LOOSE line is set by overstretching its spaces by the rest of the excess, which they take up whole. -/
theorem looseLineSharesRest : Obligations.LooseLineSharesRest := by
  intro width glyphs sp spaced ordered loose x
  have set : setLine .justify width glyphs sp = ⟨overstretch x sp, 0⟩ :=
    setLine_justify_of_loose width glyphs sp spaced ordered loose
  refine ⟨by rw [set, overstretch_eq_mapIdx], ?fills⟩
  case fills =>
    calc (setLine .justify width glyphs sp).spaces.sum
      _ = (overstretch x sp).sum := by rw [set]
      _ = sumMax sp + (width - glyphs - sumMax sp) := sum_overstretch x sp spaced
      _ = width - glyphs := by omega

end Sys2Proof.Proofs

/-! PROOFS. What every command keeps, once for all invariants: a predicate of the state that the few basic changes keep is
kept by every operation, and so by every command. An invariant's proof then speaks of the basic changes alone. -/

namespace Sys2Proof.Proofs

open Sys2Proof.Machine

/-! ## The basic changes -/

/-- A change of a job's record that leaves the text it names, and frees no record. -/
def SameText (r q : Job) : Prop :=
  q.firstBlock = r.firstBlock ∧ q.lastBlock = r.lastBlock ∧ q.bytes = r.bytes ∧ (q.state = .free → r.state = .free)

theorem SameText.refl (r : Job) : SameText r r := ⟨rfl, rfl, rfl, id⟩

/-- A record changed in other fields than its state and its text. -/
theorem SameText.of_same {r q : Job}
    (same : (q.state, q.firstBlock, q.lastBlock, q.bytes) = (r.state, r.firstBlock, r.lastBlock, r.bytes)) :
    SameText r q := by
  simp only [Prod.mk.injEq] at same
  obtain ⟨state, first, last, bytes⟩ := same
  exact ⟨first, last, bytes, fun free => state ▸ free⟩

/-- A record that takes another state than FREE. -/
theorem SameText.of_used {r q : Job} (used : q.state ≠ .free)
    (same : (q.firstBlock, q.lastBlock, q.bytes) = (r.firstBlock, r.lastBlock, r.bytes)) : SameText r q := by
  simp only [Prod.mk.injEq] at same
  obtain ⟨first, last, bytes⟩ := same
  exact ⟨first, last, bytes, fun free => absurd free used⟩

/-- The film positions of R163. -/
def filmPlace (f : Film) : Nat × Nat × Nat × Nat := (f.cutpos, f.p, f.hw, f.length)

/-- A change of a link that leaves its receiver where it stands, or back in HUNT. -/
def SameReceiver (l m : Link) : Prop := m.rx = l.rx ∨ m.rx = .hunt

/-- What the frame of a basic change holds: the store, the jobs, the links, the positions and the film positions. -/
def housed (s : State) : Store × Vector Job 32 × Vector Link 4 × Vector Position 6 × Nat × Nat × Nat × Nat :=
  (s.store, s.jobs, s.links, s.mount.pos, filmPlace s.film)

/-- A predicate of the state that the basic changes keep: changes of what it does not read, the film's moves, a strip
placed or removed, a record freed or filled. -/
structure Stable (P : State → Prop) : Prop where
  /-- The store, the text of every job, the receivers, the strips of the positions and the film positions stand. -/
  other : ∀ s t : State, t.store = s.store → (∀ j : JobId, SameText s.jobs[j] t.jobs[j]) →
    (∀ d : Desk, SameReceiver s.links[d] t.links[d]) →
    (∀ p : Pos, t.mount.pos[p].st = s.mount.pos[p].st) → filmPlace t.film = filmPlace s.film → P s → P t
  moved : ∀ (f : Film → Film) (s : State), (FilmSound s → FilmSound (s.modFilm f)) → P s → P (s.modFilm f)
  placed : ∀ (p : Pos) (f : Position → Position) (s : State),
    (MountedOnce s → MountedOnce (s.modPos p f)) → P s → P (s.modPos p f)
  freed : ∀ (j : JobId) (s : State), P s → P (freeJob j s)
  filled : ∀ (j : JobId) (r : Job) (s : State), s.jobs[j].state = .free → r.state ≠ .free → r.firstBlock = none →
    r.lastBlock = none → r.bytes = 0 → P s → P (s.modJob j fun _ => r)

/-! ## The receiver of a link is written by the bytes that arrive, and by a reset -/

theorem Link.kick_rx (l : Link) : l.kick.rx = l.rx := by
  rcases l.kick_cases with ⟨-, e⟩ | ⟨_, -, -, e⟩ | ⟨_, _, -, -, -, e⟩ <;> rw [e]

theorem Link.enqueue_rx (f : Frame) (l : Link) : (l.enqueue f).rx = l.rx := Link.kick_rx _
theorem Link.place_rx (f : FlowFrame) (l : Link) : (l.place f).rx = l.rx := Link.kick_rx _
theorem Link.sent_rx (l : Link) : l.sent.rx = l.rx := Link.kick_rx _

theorem Link.notice_rx (k : NoticeKind) (j : Option JobId) (n : Nat) (l : Link) : (l.notice k j n).rx = l.rx := by
  unfold Link.notice
  dsimp only
  split
  · exact Link.enqueue_rx _ _
  · rfl

theorem Link.takeHold_rx (time : Nat) (l : Link) : (l.takeHold time).rx = l.rx := by
  unfold Link.takeHold
  split
  · rfl
  · exact Link.place_rx _ _

theorem Link.takeResume_rx (l : Link) : l.takeResume.rx = l.rx := by
  unfold Link.takeResume
  split
  · exact Link.place_rx _ _
  · rfl

namespace Stable

theorem foldl {P : State → Prop} (_ : Stable P) {α : Type} {f : State → α → State} (step : ∀ s a, P s → P (f s a))
    {s : State} (as : List α) (h : P s) : P (as.foldl f s) := by
  induction as generalizing s with
  | nil => exact h
  | cons a rest ih => exact ih (step s a h)

theorem ite {P : State → Prop} (_ : Stable P) {c : Prop} [Decidable c] {a b : State} (ha : c → P a) (hb : ¬ c → P b) :
    P (if c then a else b) := by
  split
  · exact ha ‹_›
  · exact hb ‹_›

variable {P : State → Prop} (hP : Stable P) {s : State}
include hP

/-- A change of the fields that no basic change speaks of. -/
theorem frame {t : State} (h : P s) (same : housed t = housed s) : P t := by
  simp only [housed, Prod.mk.injEq] at same
  obtain ⟨store, jobs, links, pos, film⟩ := same
  exact hP.other s t store (fun j => by rw [jobs]; exact .refl _) (fun d => by rw [links]; exact .inl rfl)
    (fun p => by rw [pos]) film h

theorem modLink (d : Desk) (f : Link → Link) (rx : ∀ l, SameReceiver l (f l)) (h : P s) : P (s.modLink d f) := by
  refine hP.other s _ rfl (fun _ => .refl _) (fun e => ?_) (fun _ => rfl) rfl h
  by_cases same : d = e
  · subst same
    simpa using rx s.links[d]
  · have other : (s.modLink d f).links[e] = s.links[e] := put_other _ _ _ _ same
    rw [other]
    exact .inl rfl

theorem modLinks (f : Link → Link) (rx : ∀ l, SameReceiver l (f l)) (h : P s) : P (s.modLinks f) := by
  refine hP.other s _ rfl (fun _ => .refl _) (fun e => ?_) (fun _ => rfl) rfl h
  have changed : (s.modLinks f).links[e] = f s.links[e] := State.modLinks_get f s e.val e.isLt
  rw [changed]
  exact rx _

theorem send (c : MechCommand) (h : P s) : P (s.send c) := hP.frame h rfl
theorem modImg (f : Imaging → Imaging) (h : P s) : P (s.modImg f) := hP.frame h rfl
theorem modProof (f : ProofChannel → ProofChannel) (h : P s) : P (s.modProof f) := hP.frame h rfl
theorem reply (d : Desk) (t : Byte) (c : ReplyCode) (x : List Byte) (h : P s) : P (s.reply d t c x) :=
  hP.modLink d _ (fun l => .inl (Link.enqueue_rx _ l)) h

theorem notice (d : Desk) (k : NoticeKind) (j : JobId) (n : Nat) (h : P s) : P (s.notice d k j n) :=
  hP.modLink d _ (fun l => .inl (Link.notice_rx _ _ _ l)) h

theorem noticeAll (k : NoticeKind) (n : Nat) (h : P s) : P (s.noticeAll k n) :=
  hP.modLinks _ (fun l => .inl (Link.notice_rx _ _ _ l)) h

theorem modJob (j : JobId) (f : Job → Job) (text : SameText s.jobs[j] (f s.jobs[j])) (h : P s) : P (s.modJob j f) := by
  refine hP.other s _ rfl (fun k => ?_) (fun _ => .inl rfl) (fun _ => rfl) rfl h
  by_cases e : j = k
  · subst e
    simpa using text
  · have other : (s.modJob j f).jobs[k] = s.jobs[k] := put_other _ _ _ _ e
    rw [other]
    exact .refl _

/-- A change of a position's pins or last use. -/
theorem modPos (p : Pos) (f : Position → Position) (strip : ∀ q, (f q).st = q.st) (h : P s) : P (s.modPos p f) := by
  refine hP.other s _ rfl (fun _ => .refl _) (fun _ => .inl rfl) (fun q => ?_) rfl h
  by_cases e : p = q
  · subst e
    simp [strip]
  · exact congrArg Position.st (put_other _ _ _ _ e)

/-! ## The galley store and the job queue -/

theorem decideHold (h : P s) : P s.decideHold := hP.modLinks _ (fun l => .inl (Link.takeHold_rx _ l)) h
theorem decideResume (h : P s) : P s.decideResume := hP.modLinks _ (fun l => .inl (Link.takeResume_rx l)) h
theorem flowAfterTaking (h : P s) : P (flowAfterTaking s) := hP.ite (fun _ => hP.decideHold h) fun _ => h
theorem flowAfterFreeing (h : P s) : P (flowAfterFreeing s) := hP.ite (fun _ => hP.decideResume h) fun _ => h
theorem flowIfFreed (n : Nat) (h : P s) : P (flowIfFreed n s) := hP.ite (fun _ => hP.flowAfterFreeing h) fun _ => h
theorem flowAfterWrite (h : P s) : P (flowAfterWrite s) :=
  hP.ite (fun _ => hP.decideHold h) fun _ => hP.ite (fun _ => hP.decideResume h) fun _ => h

theorem abandon (d : Desk) (j : JobId) (why : JobReason) (h : P s) : P (abandon d j why s) :=
  have stopped : P ((freeJob j s).modLink d fun l => { l with silenceTimer := none }) :=
    hP.modLink d _ (fun _ => .inl rfl) (hP.freed j s h)
  hP.flowIfFreed _ (hP.ite (fun _ => stopped) fun _ => hP.notice _ _ _ _ stopped)

theorem abandonReceiving (d : Desk) (why : JobReason) (h : P s) : P (abandonReceiving d why s) := by
  unfold Machine.abandonReceiving
  split
  · exact hP.abandon _ _ _ h
  · exact h

theorem enterTail (j : JobId) (h : P s) : P (enterTail j s) := hP.frame h rfl

theorem selectJob (j : JobId) (h : P s) : P (selectJob j s) :=
  hP.frame (hP.modJob j (fun r => { r with state := .composing, saved := some (s.jobs[j].saved.getD (freshContext s)) })
    (.of_used JobState.noConfusion rfl) h) rfl

theorem trySelect (h : P s) : P (trySelect s) := by
  rcases trySelect_cases s with e | ⟨j, -, -, e⟩ <;> rw [e]
  · exact h
  · exact hP.selectJob j h

theorem idleEngine (h : P s) : P (idleEngine s) := hP.frame h rfl

theorem refreshEngine (h : P s) : P (refreshEngine s) := by
  unfold Machine.refreshEngine
  split
  · exact h
  · exact hP.ite (fun _ => hP.frame h rfl) fun _ => h
  · exact hP.frame h rfl

theorem stopComposing (j : JobId) (f : Job → Job) (text : SameText s.jobs[j] (f s.jobs[j])) (h : P s) :
    P (stopComposing j f s) := hP.idleEngine (hP.modJob j f text h)

theorem decideHeld (j : JobId) (r : HeldRecord) (a : Action) (h : P s) : P (decideHeld j r a s) :=
  hP.modJob j _ (.of_used JobState.noConfusion rfl) h

theorem checkJob (j : JobId) (h : P s) : P (checkJob j s) := by
  rcases checkJob_cases j s with e | e | ⟨k, n, e⟩ | e <;> rw [e]
  · exact h
  · exact hP.freed j s h
  · exact hP.freed j _ (hP.notice _ _ _ _ h)
  · exact hP.modJob j _ (.of_used JobState.noConfusion rfl) (hP.notice _ _ _ _ h)

theorem checkJobs (js : List JobId) (h : P s) : P (checkJobs js s) := hP.foldl (fun _ j => hP.checkJob j) js h

/-! ## Fonts and the mount table -/

theorem pin (p : Pos) (h : P s) : P (pin p s) :=
  hP.ite (fun _ => hP.send _ (hP.modPos p _ (fun _ => rfl) h)) fun _ => hP.modPos p _ (fun _ => rfl) h

theorem unpin (p : Pos) (h : P s) : P (unpin p s) :=
  hP.ite (fun _ => h) fun _ =>
    hP.ite (fun _ => hP.send _ (hP.modPos p _ (fun _ => rfl) h)) fun _ => hP.modPos p _ (fun _ => rfl) h

theorem countFlash (p : Pos) (h : P s) : P (countFlash p s) := by
  refine hP.modPos p (fun q => { q with lastUse := satSucc Config.max32 s.mount.flashSeq }) (fun _ => rfl) (hP.frame h rfl)

theorem requeueWaiter (j : JobId) (h : P s) : P (requeueWaiter j s) := hP.modJob j _ (.of_used JobState.noConfusion rfl) h

theorem noticeMountWait (f : Nat) (j : JobId) (h : P s) : P (noticeMountWait f j s) := hP.notice _ _ _ _ h

theorem promoteWaiting (n : Nat) (h : P s) : P (promoteWaiting n s) := by
  induction n generalizing s with
  | zero => exact h
  | succ n ih =>
    unfold Machine.promoteWaiting
    split
    · exact h
    · split
      · exact h
      · exact hP.ite (fun _ => ih (hP.foldl (fun _ k => hP.noticeMountWait _ k) _ (hP.frame h rfl))) fun _ => h

theorem releaseWaiters (f : Nat) (h : P s) : P (releaseWaiters f s) :=
  hP.promoteWaiting _ (hP.foldl (fun _ j => hP.requeueWaiter j) _ (hP.frame h rfl))

theorem leaveWaiters (j : JobId) (h : P s) : P (leaveWaiters j s) :=
  hP.promoteWaiting _ (hP.modJob j _ (.of_same rfl) (hP.frame h rfl))

theorem enterWaiter (j : JobId) (f : Nat) (h : P s) : P (enterWaiter j f s) :=
  hP.ite (fun _ => hP.noticeMountWait _ _ (hP.frame h rfl)) fun _ =>
    hP.ite (fun _ => hP.noticeMountWait _ _ (hP.frame h rfl)) fun _ => hP.frame h rfl

theorem refreshMount (h : P s) : P (refreshMount s) :=
  hP.ite (fun _ => hP.send _ (hP.frame h rfl)) fun _ => hP.frame h rfl

omit hP in
theorem mem_allPositions (p : Pos) : p ∈ allPositions := by
  revert p
  decide

omit hP in
/-- A position takes a state whose font, if any, is MOUNTED at no other position. -/
theorem mountedOnce_modPos (p : Pos) (f : Position → Position)
    (alone : ∀ n, (f s.mount.pos[p]).font = some n → ∀ q : Pos, q ≠ p → s.mount.pos[q].font ≠ some n)
    (once : MountedOnce s) : MountedOnce (s.modPos p f) := by
  intro a b hab n ha
  have at_ (q : Pos) : (s.modPos p f).mount.pos[q] = if p = q then f s.mount.pos[p] else s.mount.pos[q] := by
    simp [Fin.ext_iff]
  rw [at_] at ha ⊢
  by_cases ea : p = a <;> by_cases eb : p = b
  · exact absurd (ea.symm.trans eb) hab
  · rw [if_pos ea] at ha
    rw [if_neg eb]
    exact alone n ha b (Ne.symm eb)
  · rw [if_neg ea] at ha
    rw [if_pos eb]
    exact fun hb => alone n hb a (Ne.symm ea) ha
  · rw [if_neg ea] at ha
    rw [if_neg eb]
    exact once a b hab n ha

theorem classifyStrip (p : Pos) (c : Nat) (h : P s) : P (classifyStrip p c s) := by
  unfold Machine.classifyStrip
  split
  · exact hP.placed p _ s (mountedOnce_modPos p _ nofun) h
  · rename_i n hn
    split
    · exact hP.placed p _ s (mountedOnce_modPos p _ nofun) h
    · rename_i free
      refine hP.releaseWaiters n (hP.placed p _ s (mountedOnce_modPos p _ fun m hm q hq => ?_) h)
      obtain rfl : n = m := Option.some.inj hm
      intro mounted
      exact free (List.any_eq_true.mpr ⟨q, mem_allPositions q, by simpa [hq] using mounted⟩)

theorem reclassifyAt (p : Pos) (h : P s) : P (reclassifyAt s p) := by
  unfold Machine.reclassifyAt
  split
  · exact hP.classifyStrip _ _ h
  · exact hP.classifyStrip _ _ h
  · exact h

theorem reclassify (h : P s) : P (reclassify s) := hP.foldl (fun _ p => hP.reclassifyAt p) _ h

theorem emptyPosition (p : Pos) (h : P s) : P (emptyPosition p s) :=
  hP.reclassify (hP.placed p _ s (mountedOnce_modPos p _ nofun) h)

/-! ## The line buffer -/

theorem pinRecord (r : Record) (h : P s) : P (pinRecord r s) := hP.foldl (fun _ p => hP.pin p) _ h
theorem unpinRecord (r : Record) (h : P s) : P (unpinRecord r s) := hP.foldl (fun _ p => hP.unpin p) _ h

theorem appendLine (j : JobId) (t : TextLine) (h : P s) : P (appendLine j t s) := by
  unfold Machine.appendLine
  dsimp only
  refine hP.modJob j _ ?_ (hP.ite (fun _ => hP.pinRecord _ (hP.frame h rfl)) fun _ => hP.frame h rfl)
  exact (.of_same rfl)

theorem appendCut (j : JobId) (h : P s) : P (appendCut j s) :=
  hP.modJob j (fun r => { r with textSinceCut := false }) (.of_same rfl) (hP.frame h rfl)

theorem sweep (h : P s) : P (sweep s) := hP.checkJobs _ (hP.refreshEngine (hP.frame h rfl))
theorem askImaging (h : P s) : P (askImaging s) := hP.frame h rfl

theorem finishImaging (h : P s) : P (finishImaging s) := by
  unfold Machine.finishImaging
  split
  · exact h
  · refine hP.sweep ?_
    split
    · exact hP.modJob _ _ (.of_same rfl) (hP.unpinRecord _ (hP.frame h rfl))
    · exact hP.unpinRecord _ (hP.frame h rfl)

theorem giveBackImaging (h : P s) : P (giveBackImaging s) := hP.frame h rfl

theorem finishProof (h : P s) : P (finishProof s) := by
  unfold Machine.finishProof
  split
  · exact h
  · exact hP.sweep (hP.modJob _ _ (.of_same rfl) (hP.frame h rfl))

theorem giveBackProof (h : P s) : P (giveBackProof s) := hP.sweep (hP.frame h rfl)

theorem excuseProofs (h : P s) : P (excuseProofs s) :=
  hP.ite (fun _ => h) fun _ => hP.sweep (hP.foldl (fun _ j => hP.modJob j _ (.of_same rfl)) _ (hP.frame h rfl))

theorem cancelRecords (j : JobId) (h : P s) : P (cancelRecords j s) :=
  hP.refreshEngine (hP.frame (hP.foldl (fun _ r => hP.unpinRecord r) _ h) rfl)

theorem cancelJob (j : JobId) (h : P s) : P (cancelJob j s) := by
  have left : P (if s.jobs[j].state = .waitMount then Machine.leaveWaiters j s else s) :=
    hP.ite (fun _ => hP.leaveWaiters j h) fun _ => h
  have marked := hP.modJob j (fun r => { r with state := .cancelled, reason := .cancel, held := none, heldTimer := none })
    (.of_used JobState.noConfusion rfl) left
  exact hP.checkJob j (hP.cancelRecords j (hP.ite (fun _ => hP.idleEngine (hP.frame marked rfl)) fun _ => hP.frame marked rfl))

theorem rewind (e : JobId × Nat × Context) (h : P s) : P (rewind e s) := by
  have left : P (if s.jobs[e.1].state = .waitMount then Machine.leaveWaiters e.1 s else s) :=
    hP.ite (fun _ => hP.leaveWaiters _ h) fun _ => h
  refine hP.ite (fun _ => hP.checkJob _ h) fun _ => hP.notice _ _ _ _ ?_
  have idle := hP.ite (c := s.jobs[e.1].state = .composing) (fun _ => hP.idleEngine left) fun _ => left
  exact hP.frame (hP.modJob e.1 (fun q =>
    { q with state := .queued, saved := some e.2.2, composed := e.2.1 - 1, exposed := q.delivered, held := none,
             heldTimer := none, waitedFont := none, reason := .none }) (.of_used JobState.noConfusion rfl) idle) rfl

theorem handOver (e : JobId × Nat × Context) (h : P s) : P (handOver s e) := hP.rewind e (hP.frame h rfl)

theorem stopAtBoundary (h : P s) : P (stopAtBoundary s) := by
  unfold Machine.stopAtBoundary
  split
  · exact hP.stopComposing _ _ (.of_used JobState.noConfusion rfl) h
  · exact h

theorem flush (segs : List Segment) (h : P s) : P (flush segs s) :=
  hP.checkJobs _ (hP.trySelect (hP.refreshEngine (hP.stopAtBoundary
    (hP.foldl (fun _ e => hP.handOver e) _ (hP.frame (hP.foldl (fun _ r => hP.unpinRecord r) _ h) rfl)))))

/-! ## The proof channel -/

theorem beginPrinting (j : JobId) (t : TextLine) (h : P s) : P (beginPrinting j t s) :=
  hP.ite (fun _ => hP.modProof _ (hP.modProof _ h)) fun _ => hP.modProof _ h

theorem askProof (h : P s) : P (askProof s) := by
  unfold Machine.askProof
  split
  · exact h
  · dsimp only
    split
    · exact hP.beginPrinting _ _ (hP.frame h rfl)
    · exact h

theorem runProof (h : P s) : P (runProof s) := hP.ite (fun _ => hP.askProof h) fun _ => hP.excuseProofs h

theorem giveBackPrinting (h : P s) : P (giveBackPrinting s) := by
  unfold Machine.giveBackPrinting
  split
  · exact h
  · exact hP.giveBackProof (hP.modProof _ h)

theorem printed (h : P s) : P (printed s) := by
  unfold Machine.printed
  split
  · exact hP.modProof _ h
  · exact hP.finishProof (hP.modProof _ h)

theorem takeAccept (h : P s) : P (takeAccept s) := by
  unfold Machine.takeAccept
  split
  · exact h
  · split
    · exact hP.modProof _ h
    · exact hP.printed h

/-! ## The film transport -/

/-- A change of the film that leaves its positions. -/
theorem modFilm (f : Film → Film) (place : filmPlace (f s.film) = filmPlace s.film) (h : P s) : P (s.modFilm f) :=
  hP.frame h (by simp only [housed, State.modFilm_film, place]; rfl)

theorem lowTest (h : P s) : P (lowTest s) :=
  hP.ite (fun _ => hP.noticeAll _ _ (hP.modFilm _ rfl h)) fun _ => h

/-- An ADVANCE that stays on the roll. -/
theorem sendAdvance (n : Nat) (room : FilmSound s → s.film.p + n ≤ s.film.length) (h : P s) : P (sendAdvance n s) := by
  refine hP.lowTest (hP.send _ (hP.moved _ s (fun sound => ?_) h))
  obtain ⟨cut, high, len⟩ := sound
  have hn := room ⟨cut, high, len⟩
  refine ⟨?_, ?_, ?_⟩ <;> simp <;> omega

/-- A REVERSE that stays above CUTPOS. -/
theorem sendReverse (n : Nat) (room : FilmSound s → s.film.cutpos + n ≤ s.film.p) (h : P s) : P (sendReverse n s) := by
  refine hP.send _ (hP.moved _ s (fun sound => ?_) h)
  obtain ⟨cut, high, len⟩ := sound
  have hn := room ⟨cut, high, len⟩
  refine ⟨?_, ?_, ?_⟩ <;> simp <;> omega

theorem beginCut (why : CutPurpose) (h : P s) : P (beginCut why s) := by
  refine hP.sendAdvance _ (fun sound => ?_) (hP.modFilm _ rfl h)
  obtain ⟨cut, high, len⟩ := sound
  simp at high len ⊢
  omega

theorem sendBlade (why : CutPurpose) (h : P s) : P (sendBlade why s) := hP.send _ (hP.modFilm _ rfl h)

theorem deliveredTo (j : JobId) (h : P s) : P (deliveredTo s j) :=
  hP.checkJob j (hP.modJob j _ (.of_same rfl) h)

theorem countDelivered (g : Segment) (h : P s) : P (countDelivered s g) := hP.modJob _ _ (.of_same rfl) h

theorem deliver (h : P s) : P (deliver s) :=
  hP.foldl (fun _ j => hP.deliveredTo j) _ (hP.modFilm _ rfl (hP.foldl (fun _ g => hP.countDelivered g) _ h))

theorem spoil (h : P s) : P (spoil s) := hP.flush _ (hP.modFilm _ rfl h)

/-! ## The sequencer -/

theorem enterStopped (r : StopReason) (h : P s) : P (enterStopped r s) := hP.noticeAll _ _ (hP.modImg _ h)

theorem resumeTest (h : P s) : P (resumeTest s) :=
  hP.ite (fun _ => hP.modImg _ h) fun _ => hP.ite (fun _ => h) fun _ => hP.enterStopped _ h

theorem abandonWork (h : P s) : P (abandonWork s) := hP.modImg _ h

theorem mechanismFault (r : StopReason) (h : P s) : P (mechanismFault r s) :=
  hP.enterStopped _ (hP.modImg _ (hP.spoil (hP.abandonWork h)))

theorem cutFault (h : P s) : P (cutFault s) := hP.enterStopped _ (hP.abandonWork h)

theorem filmLost (r : StopReason) (h : P s) : P (filmLost r s) := by
  have working : P (Machine.enterStopped r (Machine.giveBackImaging (Machine.abandonWork
      (s.modFilm fun f => { f with move := none, cut := none, cutTimer := none })))) :=
    hP.enterStopped _ (hP.giveBackImaging (hP.abandonWork (hP.modFilm _ rfl h)))
  unfold Machine.filmLost
  split
  case h_1 => exact hP.enterStopped _ h
  case h_5 => exact hP.ite (fun _ => hP.resumeTest h) fun _ => h
  case h_6 => exact h
  all_goals exact working

theorem filmChanged (h : P s) : P (filmChanged s) := hP.ite (fun _ => hP.resumeTest h) fun _ => h

theorem startMove (m : ImgMove) (h : P s) : P (startMove m s) := by
  unfold Machine.startMove
  dsimp only
  split
  · exact hP.send _ (hP.modImg _ h)
  · exact hP.modImg _ h

theorem resend (m : ImgMove) (n : Nat) (h : P s) : P (resend m n s) := hP.modImg _ (hP.startMove m h)
theorem endMove (h : P s) : P (endMove s) := hP.modImg _ h

theorem flashElement (e : Element) (h : P s) : P (flashElement e s) := by
  unfold Machine.flashElement
  dsimp only
  refine hP.startMove _ ?_
  split
  · exact hP.countFlash _ (hP.send _ (hP.send _ h))
  · exact hP.send _ (hP.send _ h)

theorem lineExposed (h : P s) : P (lineExposed s) := by
  unfold Machine.lineExposed
  dsimp only
  refine hP.modImg _ (hP.send _ (hP.finishImaging ?_))
  split
  · exact hP.modFilm _ rfl h
  · exact h

theorem runElement (h : P s) : P (runElement s) := by
  unfold Machine.runElement
  split
  · exact hP.lineExposed h
  · split
    · exact hP.ite (fun _ => hP.startMove _ h) fun _ => hP.ite (fun _ => hP.startMove _ h) fun _ => hP.flashElement _ h
    · exact hP.ite (fun _ => hP.startMove _ h) fun _ => hP.flashElement _ h

theorem beginSetting (h : P s) : P (beginSetting s) := hP.runElement (hP.modImg _ h)
theorem noteFilmOut (h : P s) : P (noteFilmOut s) := hP.noticeAll _ _ (hP.modFilm _ rfl h)
theorem stopFilmOut (h : P s) : P (stopFilmOut s) := hP.enterStopped _ (hP.giveBackImaging (hP.abandonWork h))
theorem cutFor (why : CutPurpose) (h : P s) : P (cutFor why s) := hP.beginCut why (hP.modImg _ h)

theorem reverseLine (j : JobId) (l : Int) (h : P s) : P (reverseLine j l s) := by
  have floor : s.film.cutpos ≤ reverseFloor s := by unfold reverseFloor; omega
  have clamped : P (s.modJob j fun r => { r with reverseClamped := true }) := hP.modJob j _ (.of_same rfl) h
  refine hP.ite (fun _ => hP.sendReverse _ (fun ⟨below, _, _⟩ => by omega) h) fun _ =>
    hP.ite (fun _ => hP.beginSetting clamped) fun low => hP.sendReverse _ (fun _ => ?_) clamped
  simp at low ⊢
  omega

theorem moveLine (j : JobId) (l : Int) (h : P s) : P (moveLine j l s) := by
  refine hP.ite (fun _ => hP.ite (fun _ => hP.stopFilmOut (hP.noteFilmOut h)) fun _ => hP.cutFor _ h) fun room => ?_
  refine hP.ite (fun ahead => hP.sendAdvance _ (fun _ => ?_) h) fun _ =>
    hP.ite (fun _ => hP.beginSetting h) fun _ => hP.reverseLine j l h
  simp only [moveTarget, if_pos ahead.le] at room
  omega

theorem testLength (j : JobId) (l : Int) (h : P s) : P (testLength j l s) :=
  hP.ite (fun _ => hP.cutFor _ h) fun _ => hP.moveLine j l h

theorem testSegments (j : JobId) (t : TextLine) (h : P s) : P (testSegments j t s) :=
  hP.ite (fun _ => hP.cutFor _ h) fun _ => hP.testLength j _ h

theorem beginRecord (r : Record) (h : P s) : P (beginRecord r s) := by
  unfold Machine.beginRecord
  split
  · exact hP.testSegments _ _ (hP.modImg _ h)
  · exact hP.ite (fun _ => hP.finishImaging h) fun _ => hP.cutFor _ h

theorem cutPending (h : P s) : P (cutPending s) := hP.ite (fun _ => hP.modFilm _ rfl h) fun _ => hP.cutFor _ h

theorem runImaging (n : Nat) (h : P s) : P (runImaging n s) := by
  induction n generalizing s with
  | zero => exact h
  | succ n ih =>
    unfold Machine.runImaging
    refine hP.ite (fun _ => h) fun _ => hP.ite (fun _ => ih (hP.cutPending h)) fun _ => ?_
    split
    · exact h
    · exact ih (hP.beginRecord _ (hP.askImaging h))

theorem cutReported (why : CutPurpose) (h : P s) : P (cutReported why s) := by
  unfold Machine.cutReported
  split
  · exact hP.modImg _ h
  · exact hP.modImg _ (hP.finishImaging h)
  · split
    · exact hP.testLength _ _ (hP.modImg _ h)
    · exact hP.modImg _ h
  · split
    · exact hP.moveLine _ _ (hP.modImg _ h)
    · exact hP.modImg _ h
  · exact hP.stopFilmOut (hP.noteFilmOut h)

theorem weakTest (h : P s) : P (weakTest s) :=
  hP.ite (fun _ => h) fun _ =>
    hP.ite (fun _ => hP.ite (fun _ => h) fun _ => hP.noticeAll _ _ (hP.modImg _ h)) fun _ => hP.modImg _ h

theorem flashEnded (r : Nat) (h : P s) : P (flashEnded r s) :=
  hP.ite (fun _ => hP.weakTest (hP.mechanismFault _ (hP.modImg _ h))) fun _ =>
    hP.runElement (hP.modImg _ (hP.weakTest (hP.modImg _ (hP.modImg _ h))))

theorem lockFailure (p : Pos) (h : P s) : P (lockFailure p s) :=
  hP.enterStopped _ (hP.emptyPosition p (hP.spoil (hP.abandonWork h)))

theorem takeStripOut (p : Pos) (h : P s) : P (takeStripOut p s) :=
  hP.ite (fun _ => h) fun _ => hP.ite (fun _ => hP.lockFailure p h) fun _ => hP.emptyPosition p h

/-! ## What follows an event, and the build -/

theorem settleImaging (h : P s) : P (settleImaging s) := hP.runImaging _ h

theorem settle (n : Nat) (h : P s) : P (settle n s) :=
  hP.flowIfFreed _ (hP.refreshMount (hP.trySelect (hP.refreshEngine (hP.runProof (hP.settleImaging h)))))

theorem finishText (j : JobId) (h : P s) : P (finishText j s) :=
  hP.checkJob j (hP.stopComposing j _ (.of_used JobState.noConfusion rfl) h)

theorem afterLine (j : JobId) (request atEnd : Bool) (h : P s) : P (afterLine j request atEnd s) :=
  hP.ite (fun _ => hP.ite (fun _ => hP.ite (fun _ => hP.finishText j (hP.appendCut j h)) fun _ => hP.appendCut j h)
    fun _ => hP.frame h rfl) fun _ => hP.ite (fun _ => hP.finishText j h) fun _ => h

theorem appendOwed (j : JobId) (o : OwedCut) (h : P s) : P (appendOwed j o s) := by
  unfold Machine.appendOwed
  dsimp only
  split
  · exact hP.appendCut j (hP.frame h rfl)
  · exact hP.finishText j (hP.appendCut j (hP.frame h rfl))

theorem preempt (j : JobId) (h : P s) : P (preempt j s) :=
  hP.frame (hP.stopComposing j (fun r => { r with state := .queued }) (.of_used JobState.noConfusion rfl)
    (hP.ite (c := (s.jobs[j].imagingDue && s.jobs[j].textSinceCut) = true) (fun _ => hP.appendCut j h) fun _ => h)) rfl

theorem recordLine (j : JobId) (c : Closed) (placed : List Placed) (first : Option Nat) (exc : Raised) (h : P s) :
    P (recordLine j c placed first exc s) := by
  refine hP.afterLine j _ _ (hP.frame (hP.modJob j (fun q => { q with
    saved := some (nextContext (s.jobs[j].saved.getD (freshContext s)) c)
    decisions := dropUnapplied (s.jobs[j].saved.getD (freshContext s)).line exc.applied q.decisions }) ?_
    (hP.appendLine j _ h)) rfl)
  exact (.of_same rfl)

theorem stopForFont (j : JobId) (f : Nat) (h : P s) : P (stopForFont j f s) :=
  hP.enterWaiter j f (hP.stopComposing j _ (.of_used JobState.noConfusion rfl) h)

theorem stopHeld (j : JobId) (k : Exc) (line words : Nat) (h : P s) : P (stopHeld j k line words s) :=
  hP.notice _ _ _ _ (hP.stopComposing j _ (.of_used JobState.noConfusion rfl) h)

theorem stopFaulted (j : JobId) (reason : JobReason) (detail : Nat) (h : P s) : P (stopFaulted j reason detail s) :=
  hP.checkJob j (hP.notice _ _ _ _ (hP.stopComposing j _ (.of_used JobState.noConfusion rfl) h))

theorem takeResult (j : JobId) (ctx : Context) (r : Result) (h : P s) : P (takeResult j ctx r s) := by
  have flagged : P (flagRaised j r.exc.kinds s) := hP.modJob j _ (.of_same rfl) h
  unfold Machine.takeResult
  dsimp only
  split
  · exact hP.recordLine _ _ _ _ _ flagged
  · exact hP.afterLine _ _ _ flagged
  · exact hP.stopForFont _ _ flagged
  · exact hP.stopFaulted _ _ _ flagged
  · exact hP.stopHeld _ _ _ _ flagged

theorem buildOnce (j : JobId) (h : P s) : P (buildOnce j s) := by
  unfold Machine.buildOnce
  split
  · exact hP.appendOwed _ _ h
  · exact hP.ite (fun _ => hP.preempt j h) fun _ => hP.takeResult _ _ _ h

theorem takeBuild (h : P s) : P (takeBuild s) := by
  refine hP.ite (fun _ => ?_) fun _ => h
  split
  · exact hP.settle _ (hP.buildOnce _ h)
  · exact h

end Stable

end Sys2Proof.Proofs

/-! PROOFS. What every command keeps, continued: the requests, the receiver and the commands. -/

namespace Sys2Proof.Proofs

open Sys2Proof.Machine

namespace Stable

variable {P : State → Prop} (hP : Stable P) {s : State}
include hP

/-! ## The job requests -/

theorem refuse (d : Desk) (t : Byte) (c : ReplyCode) (h : P s) : P (refuse d t c s) := hP.reply _ _ _ _ h
theorem stopSilence (d : Desk) (h : P s) : P (stopSilence d s) :=
  hP.modLink d _ (fun _ => .inl rfl) h


/-- The record that OPEN or TEST fills is the FREE one found. -/
theorem fillFree (j : JobId) (r : Job) (found : freeRecord s = some j) (used : r.state ≠ .free)
    (first : r.firstBlock = none) (last : r.lastBlock = none) (empty : r.bytes = 0) (h : P s) :
    P (s.modJob j fun _ => r) :=
  hP.filled j r s ((freeRecord_some j s).1 found).1 used first last empty h

theorem requestOpen (d : Desk) (payload : List Byte) (h : P s) : P (requestOpen d payload s) := by
  unfold Machine.requestOpen
  split
  · exact hP.refuse _ _ _ h
  · split
    · exact hP.refuse _ _ _ h
    · exact hP.refuse _ _ _ h
    · rename_i found
      exact hP.reply _ _ _ _ (hP.modLink d _ (fun _ => .inl rfl) (hP.fillFree _ _ found nofun rfl rfl rfl h))

theorem textAbandons (d : Desk) (j : JobId) (why : JobReason) (c : ReplyCode) (h : P s) : P (textAbandons d j why c s) :=
  hP.reply _ _ _ _ (hP.abandon d j why h)

theorem closeJob (d : Desk) (j : JobId) (h : P s) : P (closeJob d j s) :=
  hP.ite (fun _ => hP.stopSilence d (hP.freed j s h)) fun _ =>
    hP.trySelect (hP.stopSilence d (hP.enterTail j (hP.modJob j _ (.of_used JobState.noConfusion rfl) h)))

theorem requestClose (d : Desk) (payload : List Byte) (h : P s) : P (requestClose d payload s) := by
  unfold Machine.requestClose
  split
  · split
    · exact hP.refuse _ _ _ h
    · exact hP.ite (fun _ => hP.reply _ _ _ _ (hP.closeJob _ _ h)) fun _ => hP.refuse _ _ _ h
  · exact hP.refuse _ _ _ h

theorem requestCancel (d : Desk) (payload : List Byte) (h : P s) : P (requestCancel d payload s) := by
  unfold Machine.requestCancel
  split
  · split
    · exact hP.refuse _ _ _ h
    · split
      · exact hP.reply _ _ _ _ (hP.abandon _ _ _ h)
      · exact hP.refuse _ _ _ h
      · exact hP.reply _ _ _ _ (hP.settle _ (hP.cancelJob _ h))
  · exact hP.refuse _ _ _ h

theorem decideJob (d : Desk) (j : JobId) (a : Action) (h : P s) : P (decideJob d j a s) := by
  unfold Machine.decideJob
  split
  · exact hP.ite (fun _ => hP.reply _ _ _ _ (hP.trySelect (hP.decideHeld _ _ _ h))) fun _ => hP.refuse _ _ _ h
  · exact hP.refuse _ _ _ h

theorem requestDecide (d : Desk) (payload : List Byte) (h : P s) : P (requestDecide d payload s) := by
  unfold Machine.requestDecide
  split
  · split
    · exact hP.refuse _ _ _ h
    · split
      · exact hP.refuse _ _ _ h
      · exact hP.decideJob _ _ _ h
  · exact hP.refuse _ _ _ h

theorem releaseJob (j : JobId) (h : P s) : P (releaseJob j s) := by
  unfold Machine.releaseJob
  exact hP.frame (hP.modJob j (fun r =>
    { r with state := .queued, phase := .set, saved := some (freshContext s), composed := 0, exposed := 0,
             delivered := 0, sticky := Config.noExc, reverseClamped := false }) (.of_used JobState.noConfusion rfl) h) rfl

theorem requestRelease (d : Desk) (payload : List Byte) (h : P s) : P (requestRelease d payload s) := by
  unfold Machine.requestRelease
  split
  · split
    · exact hP.refuse _ _ _ h
    · exact hP.ite (fun _ => hP.reply _ _ _ _ (hP.trySelect (hP.releaseJob _ h))) fun _ => hP.refuse _ _ _ h
  · exact hP.refuse _ _ _ h

theorem requestTest (d : Desk) (payload : List Byte) (h : P s) : P (requestTest d payload s) := by
  unfold Machine.requestTest
  split
  · split
    · exact hP.refuse _ _ _ h
    · split
      · exact hP.refuse _ _ _ h
      · exact hP.refuse _ _ _ h
      · rename_i found
        exact hP.reply _ _ _ _ (hP.trySelect (hP.enterTail _ (hP.fillFree _ _ found nofun rfl rfl rfl h)))
  · exact hP.refuse _ _ _ h

theorem requestQueryJob (d : Desk) (payload : List Byte) (h : P s) : P (requestQueryJob d payload s) := by
  unfold Machine.requestQueryJob
  split
  · split
    · exact hP.refuse _ _ _ h
    · exact hP.ite (fun _ => hP.refuse _ _ _ h) fun _ => hP.reply _ _ _ _ h
  · exact hP.refuse _ _ _ h

/-! ## The machine requests -/

theorem requestProbe (d : Desk) (payload : List Byte) (h : P s) : P (requestProbe d payload s) := by
  unfold Machine.requestProbe
  split
  · exact hP.reply _ _ _ _ h
  · exact hP.refuse _ _ _ h

theorem requestQueryMachine (d : Desk) (payload : List Byte) (h : P s) : P (requestQueryMachine d payload s) := by
  unfold Machine.requestQueryMachine
  split
  · exact hP.reply _ _ _ _ (hP.modLink d _ (fun _ => .inl rfl) h)
  · exact hP.refuse _ _ _ h

theorem requestDictAdd (d : Desk) (payload : List Byte) (h : P s) : P (requestDictAdd d payload s) := by
  unfold Machine.requestDictAdd
  split
  · exact hP.refuse _ _ _ h
  · exact hP.ite (fun _ => hP.refuse _ _ _ h) fun _ => hP.ite (fun _ => hP.refuse _ _ _ h) fun _ =>
      hP.ite (fun _ => hP.reply _ _ _ _ (hP.frame h rfl)) fun _ =>
        hP.ite (fun _ => hP.refuse _ _ _ h) fun _ => hP.reply _ _ _ _ (hP.frame h rfl)

theorem requestDictDelete (d : Desk) (payload : List Byte) (h : P s) : P (requestDictDelete d payload s) := by
  unfold Machine.requestDictDelete
  split
  · exact hP.refuse _ _ _ h
  · exact hP.ite (fun _ => hP.refuse _ _ _ h) fun _ => hP.ite (fun _ => hP.refuse _ _ _ h) fun _ =>
      hP.ite (fun _ => hP.reply _ _ _ _ (hP.frame h rfl)) fun _ => hP.refuse _ _ _ h

theorem requestDictLookup (d : Desk) (payload : List Byte) (h : P s) : P (requestDictLookup d payload s) := by
  unfold Machine.requestDictLookup
  split
  · exact hP.refuse _ _ _ h
  · refine hP.ite (fun _ => hP.refuse _ _ _ h) fun _ => ?_
    split
    · exact hP.refuse _ _ _ h
    · exact hP.reply _ _ _ _ h

theorem replaceDescriptor (n : Fin 64) (x : Descriptor) (h : P s) : P (replaceDescriptor n x s) :=
  hP.reclassify (hP.releaseWaiters _ (hP.frame h rfl))

theorem requestDirWrite (d : Desk) (payload : List Byte) (h : P s) : P (requestDirWrite d payload s) := by
  unfold Machine.requestDirWrite
  split
  · split
    · exact hP.refuse _ _ _ h
    · refine hP.ite (fun _ => hP.refuse _ _ _ h) fun _ => ?_
      split
      · split
        · exact hP.refuse _ _ _ h
        · exact hP.reply _ _ _ _ (hP.settle _ (hP.replaceDescriptor _ _ h))
      · exact hP.refuse _ _ _ h
  · exact hP.refuse _ _ _ h

theorem requestWidthWrite (d : Desk) (payload : List Byte) (h : P s) : P (requestWidthWrite d payload s) := by
  unfold Machine.requestWidthWrite
  split
  · refine hP.ite (fun _ => hP.ite (fun _ => hP.refuse _ _ _ h) fun _ => ?_) fun _ => hP.refuse _ _ _ h
    split
    · exact hP.ite (fun _ => hP.refuse _ _ _ h) fun _ => hP.ite (fun _ => hP.refuse _ _ _ h)
        fun _ => hP.reply _ _ _ _ (hP.frame h rfl)
    · exact hP.refuse _ _ _ h
  · exact hP.refuse _ _ _ h

theorem takeTrim (d : Desk) (t : Trims) (v : Int) (h : P s) : P (takeTrim d t v s) := hP.reply _ _ _ _ (hP.modImg _ h)

theorem requestTrimWrite (d : Desk) (payload : List Byte) (h : P s) : P (requestTrimWrite d payload s) := by
  have refused : P (Machine.refuse d 0x32 .badValue s) := hP.refuse _ _ _ h
  unfold Machine.requestTrimWrite
  split
  · refine hP.ite (fun _ => refused) fun _ => hP.ite (fun _ => hP.refuse _ _ _ h) fun _ => ?_
    split
    · unfold writeLensTrim
      split
      · exact hP.takeTrim _ _ _ h
      · exact refused
    · unfold writeBaselineTrim
      split
      · exact hP.takeTrim _ _ _ h
      · exact refused
    · unfold writeExposureBase
      split
      · exact hP.takeTrim _ _ _ h
      · exact refused
  · exact refused

theorem requestSettingWrite (d : Desk) (payload : List Byte) (h : P s) : P (requestSettingWrite d payload s) := by
  unfold Machine.requestSettingWrite
  split
  · exact hP.ite (fun _ => hP.refuse _ _ _ h) fun _ => hP.ite (fun _ => hP.refuse _ _ _ h) fun _ =>
      hP.reply _ _ _ _ (hP.ite (fun _ => hP.flowAfterWrite (hP.frame h rfl)) fun _ => hP.frame h rfl)
  · exact hP.refuse _ _ _ h

theorem requestSave (d : Desk) (payload : List Byte) (h : P s) : P (requestSave d payload s) := by
  unfold Machine.requestSave
  split
  · exact hP.ite (fun _ => hP.refuse _ _ _ h) fun _ => hP.ite (fun _ => hP.refuse _ _ _ h) fun _ =>
      hP.ite (fun _ => hP.reply _ _ _ _ (hP.frame h rfl)) fun _ => hP.reply _ _ _ _ (hP.frame h rfl)
  · exact hP.refuse _ _ _ h

theorem requestNoticeMask (d : Desk) (payload : List Byte) (h : P s) : P (requestNoticeMask d payload s) := by
  unfold Machine.requestNoticeMask
  split
  · exact hP.reply _ _ _ _ (hP.modLink d _ (fun _ => .inl rfl) h)
  · exact hP.refuse _ _ _ h

theorem askCut (h : P s) : P (askCut s) := hP.ite (fun _ => h) fun _ => hP.settle _ (hP.modFilm _ rfl h)

theorem requestCut (d : Desk) (payload : List Byte) (h : P s) : P (requestCut d payload s) := by
  unfold Machine.requestCut
  split
  · exact hP.reply _ _ _ _ (hP.askCut h)
  · exact hP.refuse _ _ _ h

theorem requestProofConfig (d : Desk) (payload : List Byte) (h : P s) : P (requestProofConfig d payload s) := by
  unfold Machine.requestProofConfig
  split
  · exact hP.ite (fun _ => hP.refuse _ _ _ h) fun _ => hP.reply _ _ _ _ (hP.modProof _ h)
  · exact hP.refuse _ _ _ h

theorem enableProof (h : P s) : P (enableProof s) := hP.ite (fun _ => h) fun _ => hP.settle _ (hP.modProof _ h)

theorem disableProof (h : P s) : P (disableProof s) :=
  hP.ite (fun _ => hP.settle _ (hP.giveBackPrinting (hP.modProof _ h))) fun _ => h

theorem requestProofEnable (d : Desk) (payload : List Byte) (h : P s) : P (requestProofEnable d payload s) := by
  unfold Machine.requestProofEnable
  split
  · exact hP.ite (fun _ => hP.refuse _ _ _ h) fun _ => hP.ite (fun _ => hP.reply _ _ _ _ (hP.enableProof h))
      fun _ => hP.reply _ _ _ _ (hP.disableProof h)
  · exact hP.refuse _ _ _ h

theorem resetLink (d : Desk) (h : P s) : P (resetLink d s) := 
  hP.abandonReceiving _ _ (hP.modLink d _ (fun _ => .inr rfl) h)


theorem requestLinkReset (d : Desk) (payload : List Byte) (h : P s) : P (requestLinkReset d payload s) := by
  unfold Machine.requestLinkReset
  split
  · exact hP.reply _ _ _ _ (hP.resetLink d h)
  · exact hP.refuse _ _ _ h

/-- Every request but TEXT. -/
theorem handleRequest (d : Desk) (t : Byte) (payload : List Byte) (notText : t.toNat ≠ 0x11) (h : P s) :
    P (handleRequest d t payload s) := by
  unfold Machine.handleRequest
  split
  · exact hP.requestOpen d payload h
  · exact absurd ‹_› notText
  · exact hP.requestClose d payload h
  · exact hP.requestCancel d payload h
  · exact hP.requestDecide d payload h
  · exact hP.requestRelease d payload h
  · exact hP.requestProbe d payload h
  · exact hP.requestQueryJob d payload h
  · exact hP.requestQueryMachine d payload h
  · exact hP.requestDictAdd d payload h
  · exact hP.requestDictDelete d payload h
  · exact hP.requestDictLookup d payload h
  · exact hP.requestDirWrite d payload h
  · exact hP.requestWidthWrite d payload h
  · exact hP.requestTrimWrite d payload h
  · exact hP.requestSettingWrite d payload h
  · exact hP.requestSave d payload h
  · exact hP.requestNoticeMask d payload h
  · exact hP.requestCut d payload h
  · exact hP.requestTest d payload h
  · exact hP.requestProofConfig d payload h
  · exact hP.requestProofEnable d payload h
  · exact hP.requestLinkReset d payload h
  · exact hP.refuse _ _ _ h

/-! ## The events -/

theorem stripRemoved (p : Pos) (h : P s) : P (stripRemoved p s) :=
  hP.ite (fun _ => h) fun _ => hP.settle _ (hP.takeStripOut p h)

theorem takeStripIn (p : Pos) (c : Byte) (h : P s) : P (takeStripIn p c s) := hP.classifyStrip p _ (hP.stripRemoved p h)

theorem takeReading (p : Pos) (code : Option Byte) (h : P s) : P (takeReading p code s) := by
  unfold Machine.takeReading
  split
  · exact hP.takeStripIn p _ h
  · exact hP.stripRemoved p h

theorem scanOn (p : Pos) (h : P s) : P (scanOn p s) := by
  unfold Machine.scanOn
  split
  · exact hP.startMove _ h
  · exact hP.startMove _ (hP.modImg _ (hP.frame h rfl))

theorem stripRead (p : Pos) (code : Option Byte) (h : P s) : P (stripRead p code s) := by
  have read : P (Machine.takeReading p code (Machine.endMove s)) := hP.takeReading p code (hP.endMove h)
  exact hP.ite (fun _ => hP.settle _ (hP.ite (fun _ => hP.scanOn p read) fun _ => read)) fun _ => h

theorem confirmed (k : ConfirmKind) (h : P s) : P (confirmed k s) := by
  unfold Machine.confirmed
  split
  · refine hP.settle _ (hP.ite (fun _ => hP.startMove _ ?_) fun _ => hP.runElement ?_)
    all_goals exact hP.modImg _ (hP.endMove h)
  · exact hP.settle _ (hP.runElement (hP.modImg _ (hP.endMove h)))
  · exact hP.settle _ (hP.resumeTest (hP.modImg _ (hP.endMove h)))
  · exact h

theorem confirmExpired (h : P s) : P (confirmExpired s) := by
  unfold Machine.confirmExpired
  split
  · split
    · exact h
    · exact hP.ite (fun _ => hP.resend _ _ h) fun _ => hP.ite (fun _ => hP.resend _ _ h)
        fun _ => hP.settle _ (hP.mechanismFault _ h)
  · exact h

theorem flashDone (r : Nat) (h : P s) : P (flashDone r s) :=
  hP.ite (fun _ => hP.settle _ (hP.flashEnded _ (hP.modImg _ (hP.endMove h)))) fun _ => h

theorem flashExpired (h : P s) : P (flashExpired s) :=
  hP.ite (fun _ => hP.settle _ (hP.flashEnded _ (hP.endMove h))) fun _ => h

theorem clearFault (h : P s) : P (clearFault s) := by
  refine hP.ite (fun _ => hP.settle _ (hP.ite (fun _ => ?_) fun _ => hP.resumeTest (hP.modImg _ h))) fun _ => h
  exact hP.ite (fun _ => hP.startMove _ (hP.modImg _ (hP.modImg _ h))) fun _ => hP.startMove _ (hP.modImg _ h)

theorem moveDone (h : P s) : P (moveDone s) := by
  have ended : P (s.modFilm fun f => { f with move := none }) := hP.modFilm _ rfl h
  unfold Machine.moveDone
  split
  · exact h
  · refine hP.settle _ ?_
    unfold moveEnded
    dsimp only
    split
    · exact hP.sendBlade _ ended
    · exact hP.ite (fun _ => hP.beginSetting ended) fun _ => ended

theorem cutDone (h : P s) : P (cutDone s) := by
  unfold Machine.cutDone
  split
  · refine hP.settle _ (hP.cutReported _ (hP.deliver (hP.moved _ s (fun sound => ?_) h)))
    obtain ⟨_, high, len⟩ := sound
    exact ⟨le_refl _, high, len⟩
  · exact h

theorem cutExpired (h : P s) : P (cutExpired s) := by
  unfold Machine.cutExpired
  split
  · exact hP.settle _ (hP.cutFault (hP.ite (fun _ => hP.noteFilmOut (hP.spoil h)) fun _ => hP.spoil h))
  · exact h

theorem switchEvent (f : Film → Film) (place : filmPlace (f s.film) = filmPlace s.film) (h : P s) :
    P (switchEvent f s) := by
  have switched : P (s.modFilm f) := hP.modFilm f place h
  refine hP.ite (fun _ => h) fun _ => hP.settle _ (hP.ite (fun _ => hP.filmLost _ ?_)
    fun _ => hP.ite (fun _ => hP.filmChanged switched) fun _ => switched)
  exact hP.ite (fun _ => switched) fun _ => hP.spoil switched

theorem unloadFilm (h : P s) : P (unloadFilm s) := by
  have unloaded : P (s.modFilm fun f => { f with loaded := false, length := 0, p := 0, hw := 0, cutpos := 0 }) :=
    hP.moved _ s (fun _ => ⟨le_refl _, le_refl _, le_refl _⟩) h
  exact hP.filmLost _ (hP.ite (fun _ => hP.spoil unloaded) fun _ => unloaded)

theorem magazineOut (h : P s) : P (magazineOut s) := hP.ite (fun _ => hP.settle _ (hP.unloadFilm h)) fun _ => h

theorem magazineLoaded (feet : Nat) (h : P s) : P (magazineLoaded feet s) :=
  hP.settle _ (hP.filmChanged (hP.moved _ _ (fun _ => ⟨le_refl _, le_refl _, Nat.zero_le _⟩)
    (hP.ite (fun _ => hP.unloadFilm h) fun _ => h)))

theorem printerStops (p : Printer) (h : P s) : P (printerStops p s) :=
  hP.settle _ (hP.giveBackPrinting (hP.modProof _ h))

theorem accepted (h : P s) : P (accepted s) := hP.ite (fun _ => h) fun _ => hP.settle _ (hP.takeAccept h)

theorem endSave (h : P s) : P (endSave s) := by
  unfold Machine.endSave
  split
  · exact h
  · exact hP.frame h rfl
  · exact hP.frame h rfl

theorem breakLink (d : Desk) (h : P s) : P (breakLink d s) :=
  hP.ite (fun _ => h) fun _ => hP.resetLink d (hP.modLink d _ (fun _ => .inl rfl) h)

theorem holdExpired (d : Desk) (h : P s) : P (holdExpired d s) :=
  hP.ite (fun _ => h) fun _ => hP.ite (fun _ => hP.modLink d _ (fun _ => .inl (Link.place_rx _ _)) h)
    fun _ => hP.modLink d _ (fun _ => .inl rfl) h

theorem silenceExpired (d : Desk) (h : P s) : P (silenceExpired d s) :=
  hP.ite (fun _ => h) fun _ => hP.abandonReceiving _ _ (hP.stopSilence d h)

theorem heldExpired (j : JobId) (h : P s) : P (heldExpired j s) := by
  unfold Machine.heldExpired
  split
  · exact hP.trySelect (hP.decideHeld _ _ _ h)
  · exact h

/-- Every event keeps what the basic changes keep. -/
theorem event {c : Instr} {t : State} (isE : isEvent c = true) (run : Machine.exec c s = .next t) (h : P s) : P t := by
  cases c
  case saveComplete => exact Host.Outcome.next.inj run ▸ hP.endSave h
  case frameSent d => exact Host.Outcome.next.inj run ▸ hP.ite (fun _ => hP.modLink d _ (fun l => .inl (Link.sent_rx l)) h) fun _ => h
  case breakCondition d => exact Host.Outcome.next.inj run ▸ hP.breakLink d h
  case holdTimerExpiry d => exact Host.Outcome.next.inj run ▸ hP.holdExpired d h
  case silenceTimerExpiry d => exact Host.Outcome.next.inj run ▸ hP.silenceExpired d h
  case heldTimeout j => exact Host.Outcome.next.inj run ▸ hP.heldExpired j h
  case confirmTimerExpiry => exact Host.Outcome.next.inj run ▸ hP.confirmExpired h
  case flashTimeout => exact Host.Outcome.next.inj run ▸ hP.flashExpired h
  case cutTimerExpiry => exact Host.Outcome.next.inj run ▸ hP.cutExpired h
  case lineBuild => exact Host.Outcome.next.inj run ▸ hP.takeBuild h
  case confirm k => exact Host.Outcome.next.inj run ▸ hP.confirmed k h
  case flashDone r => exact Host.Outcome.next.inj run ▸ hP.flashDone _ h
  case stripCode p c => exact Host.Outcome.next.inj run ▸ hP.stripRead p c h
  case stripIn p c => exact Host.Outcome.next.inj run ▸ hP.settle _ (hP.takeStripIn p c h)
  case stripOut p => exact Host.Outcome.next.inj run ▸ hP.stripRemoved p h
  case lampChanged => exact Host.Outcome.next.inj run ▸ hP.modImg _ h
  case clear => exact Host.Outcome.next.inj run ▸ hP.clearFault h
  case moveDone => exact Host.Outcome.next.inj run ▸ hP.moveDone h
  case cutDone => exact Host.Outcome.next.inj run ▸ hP.cutDone h
  case cutButton => exact Host.Outcome.next.inj run ▸ hP.askCut h
  case magazineLoaded n => exact Host.Outcome.next.inj run ▸ hP.magazineLoaded _ h
  case magazineOut => exact Host.Outcome.next.inj run ▸ hP.magazineOut h
  case takeUpIn => exact Host.Outcome.next.inj run ▸ hP.switchEvent _ rfl h
  case takeUpOut => exact Host.Outcome.next.inj run ▸ hP.switchEvent _ rfl h
  case doorOpen => exact Host.Outcome.next.inj run ▸ hP.switchEvent _ rfl h
  case doorClosed => exact Host.Outcome.next.inj run ▸ hP.switchEvent _ rfl h
  case ready => exact Host.Outcome.next.inj run ▸ hP.settle _ (hP.modProof _ h)
  case paperOut => exact Host.Outcome.next.inj run ▸ hP.printerStops _ h
  case fault => exact Host.Outcome.next.inj run ▸ hP.printerStops _ h
  case accept => exact Host.Outcome.next.inj run ▸ hP.accepted h
  case returnToMarking d => exact Host.Outcome.next.inj run ▸ hP.modLink d _ (fun _ => .inl rfl) h
  all_goals exact absurd isE Bool.false_ne_true

end Stable

/-! ## The receiver -/

/-- What the links' updates and the handling of a request keep is kept by the bytes that arrive on a link. -/
structure Received (P : State → Prop) : Prop where
  link : ∀ (d : Desk) (f : Link → Link) (s : State), P s → P (s.modLink d f)
  request : ∀ (d : Desk) (t : Byte) (payload : List Byte) (s : State), P s → P (handleRequest d t payload s)

namespace Received

variable {P : State → Prop} (hP : Received P) {s : State}
include hP

theorem takeRequest (d : Desk) (f : Frame) (h : P s) : P (takeRequest d f s) := by
  unfold Machine.takeRequest
  split
  · exact hP.link _ _ _ h
  · split
    · exact hP.link _ _ _ h
    · exact hP.request _ _ _ _ h

theorem goodFrame (d : Desk) (f : Frame) (h : P s) : P (goodFrame d f s) := by
  have restarted : P (restartSilence d s) := hP.link _ _ _ h
  unfold Machine.goodFrame
  dsimp only
  split
  · exact hP.link _ _ _ restarted
  · split
    · exact hP.link _ _ _ restarted
    · exact hP.takeRequest d f restarted

theorem takeKept (d : Desk) (h : P s) : P (takeKept d s) := by
  unfold Machine.takeKept
  split
  · exact h
  · split
    · exact hP.takeRequest d _ (hP.link _ _ _ h)
    · exact h

theorem frameComplete (d : Desk) (n : Nat) (body : List Byte) (h : P s) : P (frameComplete d n body s) := by
  have hunting : P (setReceiver d .hunt s) := hP.link _ _ _ h
  unfold Machine.frameComplete
  dsimp only
  split
  · split
    · exact hP.goodFrame d _ hunting
    · exact hP.link _ _ _ hunting
  · exact hP.link _ _ _ hunting

theorem receiveByte (d : Desk) (b : Byte) (h : P s) : P (receiveByte d s b) := by
  unfold Machine.receiveByte
  split
  · exact h
  · split
    · split
      · exact hP.link _ _ _ h
      · exact h
    · split
      · exact hP.link _ _ _ h
      · exact hP.link _ _ _ (hP.link _ _ _ h)
    · split
      · exact hP.link _ _ _ h
      · exact hP.frameComplete d _ _ h

theorem receiveBytes (d : Desk) (bs : List Byte) (h : P s) : P (receiveBytes d bs s) := by
  induction bs generalizing s with
  | nil => exact h
  | cons b rest ih => exact ih (hP.receiveByte d b h)

theorem receiveFrame (d : Desk) (t : Byte) (payload : List Byte) (h : P s) : P (receiveFrame d t payload s) :=
  hP.receiveBytes d _ h

/-- Every command keeps what requests, links, start-up and the events keep. -/
theorem exec {c : Instr} {t : State} (started : P (startUp s))
    (event : isEvent c = true → exec c s = .next t → P t) (run : exec c s = .next t) (h : P s) : P t := by
  rcases frame : frameOf c with _ | ⟨d, f⟩
  · cases c with
    | reset => exact Host.Outcome.next.inj run ▸ started
    | badFrame d bytes => exact Host.Outcome.next.inj run ▸ hP.receiveBytes d bytes h
    | keptRequestTaken d => exact Host.Outcome.next.inj run ▸ hP.takeKept d h
    | _ => first | exact event rfl run | cases frame
  · rw [exec_frame c d f s frame] at run
    exact Host.Outcome.next.inj run ▸ hP.receiveFrame d _ _ h

end Received

/-! ## Every command -/

/-- What the basic changes keep, and a text appended, the receiver's bytes and start-up too. -/
structure Lasting (P : State → Prop) : Prop extends Stable P where
  appended : ∀ (j : JobId) (bytes : List Byte) (s : State), s.jobs[j].state = .receiving →
    s.jobs[j].bytes + bytes.length ≤ Config.maxText →
    blocksNeeded s.jobs[j].bytes bytes.length ≤ s.store.freeCount → P s → P (appendText j bytes s)
  linked : ∀ (d : Desk) (f : Link → Link) (s : State), P s → P (s.modLink d f)
  started : ∀ s : State, P s → P (startUp s)

namespace Lasting

variable {P : State → Prop} (hP : Lasting P) {s : State}
include hP

theorem takeText (d : Desk) (j : JobId) (offset : Nat) (bytes : List Byte) (receiving : s.jobs[j].state = .receiving)
    (h : P s) : P (takeText d j offset bytes s) := by
  refine hP.toStable.ite (fun _ => hP.toStable.textAbandons _ _ _ _ h) fun atEnd => hP.toStable.ite (fun _ => hP.toStable.textAbandons _ _ _ _ h)
    fun small => hP.toStable.ite (fun _ => hP.toStable.textAbandons _ _ _ _ h) fun room => hP.toStable.reply _ _ _ _ ?_
  have taken : P (appendText j bytes s) := hP.appended j bytes s receiving (by omega) (by omega) h
  exact hP.toStable.ite (fun _ => hP.toStable.flowAfterTaking taken) fun _ => taken

theorem requestText (d : Desk) (payload : List Byte) (h : P s) : P (requestText d payload s) := by
  unfold Machine.requestText
  split
  · refine hP.toStable.ite (fun _ => ?_) fun _ => hP.toStable.refuse _ _ _ h
    split
    · rename_i number _ _ _ j found
      have receiving : s.jobs[j].state = .receiving := by
        unfold textJob at found
        split at found
        · split at found
          · rename_i own
            exact Option.some.inj found ▸ own.1
          · cases found
        · cases found
      exact hP.takeText d j _ _ receiving h
    · exact hP.toStable.refuse _ _ _ h
  · exact hP.toStable.refuse _ _ _ h

theorem received : Received P where
  link := hP.linked
  request d t payload s h := by
    by_cases isText : t.toNat = 0x11
    · obtain rfl : t = 0x11 := BitVec.eq_of_toNat_eq isText
      exact hP.requestText d payload h
    · exact hP.toStable.handleRequest d t payload isText h

theorem exec {c : Instr} {t : State} (run : Machine.exec c s = .next t) (h : P s) : P t :=
  hP.received.exec (hP.started s h) (fun isE run => hP.toStable.event isE run h) run h

/-- Every step keeps what lasts. -/
theorem step {t : State} (run : Machine.step s = .next t) (h : P s) : P t := by
  unfold Machine.step at run
  split at run
  · exact Host.Outcome.next.inj run ▸ h
  · exact hP.exec run (hP.toStable.frame h rfl)

end Lasting

end Sys2Proof.Proofs

/-! PROOFS. The invariants of the settings, the font directory, the dictionary, the mount table and the film (O55, O56). -/

namespace Sys2Proof.Proofs

open Sys2Proof.Machine

/-! ## The mount table and the film (R85, R163) -/

theorem font_eq_of_st {p q : Position} (h : p.st = q.st) : p.font = q.font := by simp only [Position.font, h]

theorem mountedOnce_congr {s t : State} (strips : ∀ p : Pos, t.mount.pos[p].st = s.mount.pos[p].st) (h : MountedOnce s) :
    MountedOnce t := by
  intro p q pq f hf
  rw [font_eq_of_st (strips p)] at hf
  rw [font_eq_of_st (strips q)]
  exact h p q pq f hf

theorem mountedOnce_start (s : State) : MountedOnce (startUp s) := by
  intro p _ _ f hf
  have empty : (startUp s).mount.pos[p] = ⟨.empty, 0, 0⟩ := by simp [startUp, MountTable.start]
  rw [empty] at hf
  cases hf

theorem mountedOnce_lasting : Lasting MountedOnce where
  other _ _ _ _ _ strips _ := mountedOnce_congr strips
  moved _ _ _ h := h
  placed _ _ _ keeps := keeps
  freed _ _ h := h
  filled _ _ _ _ _ _ _ _ h := h
  appended _ _ _ _ _ _ h := h
  linked _ _ _ h := h
  started s _ := mountedOnce_start s

theorem filmSound_congr {s t : State} (place : filmPlace t.film = filmPlace s.film) (h : FilmSound s) : FilmSound t := by
  simp only [filmPlace, Prod.mk.injEq] at place
  obtain ⟨cut, p, hw, len⟩ := place
  simpa only [FilmSound, cut, p, hw, len] using h

theorem filmSound_lasting : Lasting FilmSound where
  other _ _ _ _ _ _ place := filmSound_congr place
  moved _ _ keeps := keeps
  placed _ _ _ _ h := h
  freed _ _ h := h
  filled _ _ _ _ _ _ _ _ h := h
  appended _ _ _ _ _ _ h := h
  linked _ _ _ h := h
  started _ _ := ⟨le_refl _, le_refl _, le_refl _⟩

/-! ## The requests that write commissioning state, the dictionary or a byte of text -/

theorem keepsSettings {s t : State} (h : t.kept = s.kept) : t.settings = s.settings := congrArg (·.2.2.1) h
theorem keepsDir {s t : State} (h : t.kept = s.kept) : t.dir = s.dir := congrArg (·.1) h
theorem keepsDict {s t : State} (h : t.kept = s.kept) : t.dict = s.dict := congrArg (·.2.1) h
theorem keepsCells {s t : State} (h : t.kept = s.kept) : t.store.cells = s.store.cells := congrArg (·.2.2.2.2.2) h

/-- A predicate of the state that is kept by all but the writes of commissioning state, of the dictionary and of text, and
by these as they are made. -/
structure Commissioned (P : State → Prop) : Prop where
  other : ∀ s t : State, t.dir = s.dir → t.dict = s.dict → t.settings = s.settings → t.store.cells = s.store.cells →
    P s → P t
  described : ∀ (n : Fin 64) (x : Descriptor) (s : State), stripTaken s n x = false → P s →
    P { s with dir := { s.dir with desc := put s.dir.desc n x } }
  widened : ∀ (tables : Vector WidthTable 24) (s : State), P s → P { s with dir := { s.dir with tables := tables } }
  added : ∀ (e : DictEntry) (s : State), (lookupWord s.dict e.word).isNone → dictCount s.dict < Config.maxEntries → P s →
    P { s with dict := dictPush e s.dict }
  replaced : ∀ (e : DictEntry) (s : State), (lookupWord s.dict e.word).isSome → P s →
    P { s with dict := dictPush e (dictRemove e.word s.dict) }
  removed : ∀ (w : List Byte) (s : State), P s → P { s with dict := dictRemove w s.dict }
  set : ∀ (id : Nat) (v : Int) (s : State), P s → P { s with settings := s.settings.write id v }
  appended : ∀ (j : JobId) (bytes : List Byte) (s : State), P s → P (appendText j bytes s)
  started : ∀ s : State, P s → P (startUp s)

namespace Commissioned

variable {P : State → Prop} (hP : Commissioned P) {s : State}
include hP

theorem kept {t : State} (h : P s) (e : t.kept = s.kept) : P t :=
  hP.other s t (keepsDir e) (keepsDict e) (keepsSettings e) (keepsCells e) h

theorem reply (d : Desk) (t : Byte) (c : ReplyCode) (x : List Byte) (h : P s) : P (s.reply d t c x) := hP.kept h (by simp)
theorem refuse (d : Desk) (t : Byte) (c : ReplyCode) (h : P s) : P (refuse d t c s) := hP.reply _ _ _ _ h

theorem requestText (d : Desk) (payload : List Byte) (h : P s) : P (requestText d payload s) := by
  unfold Machine.requestText
  split
  · split
    · split
      · unfold takeText
        dsimp only
        split
        · exact hP.kept h (by simp)
        · split
          · exact hP.kept h (by simp)
          · split
            · exact hP.kept h (by simp)
            · split
              · exact hP.kept (hP.appended _ _ s h) (by simp; rfl)
              · exact hP.kept (hP.appended _ _ s h) (by simp; rfl)
      · exact hP.refuse _ _ _ h
    · exact hP.refuse _ _ _ h
  · exact hP.refuse _ _ _ h

theorem requestDictAdd (d : Desk) (payload : List Byte) (h : P s) : P (requestDictAdd d payload s) := by
  unfold Machine.requestDictAdd
  split
  · exact hP.refuse _ _ _ h
  · split
    · exact hP.refuse _ _ _ h
    · split
      · exact hP.refuse _ _ _ h
      · dsimp only
        split
        · rename_i found
          exact hP.reply _ _ _ _ (hP.replaced _ s found h)
        · split
          · exact hP.refuse _ _ _ h
          · rename_i absent room
            exact hP.reply _ _ _ _ (hP.added _ s (by simpa using absent) (by omega) h)

theorem requestDictDelete (d : Desk) (payload : List Byte) (h : P s) : P (requestDictDelete d payload s) := by
  unfold Machine.requestDictDelete
  split
  · exact hP.refuse _ _ _ h
  · split
    · exact hP.refuse _ _ _ h
    · split
      · exact hP.refuse _ _ _ h
      · dsimp only
        split
        · exact hP.reply _ _ _ _ (hP.removed _ s h)
        · exact hP.refuse _ _ _ h

theorem requestDirWrite (d : Desk) (payload : List Byte) (h : P s) : P (requestDirWrite d payload s) := by
  unfold Machine.requestDirWrite
  split
  · split
    · exact hP.refuse _ _ _ h
    · split
      · exact hP.refuse _ _ _ h
      · split
        · split
          · exact hP.refuse _ _ _ h
          · rename_i passed
            obtain ⟨-, free, -⟩ := (dirCheck_none _ _ _).1 passed
            exact hP.kept (hP.described _ _ s free h) (by simp [replaceDescriptor])
        · exact hP.refuse _ _ _ h
  · exact hP.refuse _ _ _ h

theorem requestWidthWrite (d : Desk) (payload : List Byte) (h : P s) : P (requestWidthWrite d payload s) := by
  unfold Machine.requestWidthWrite
  split
  · split
    · split
      · exact hP.refuse _ _ _ h
      · split
        · split
          · exact hP.refuse _ _ _ h
          · split
            · exact hP.refuse _ _ _ h
            · exact hP.reply _ _ _ _ (hP.widened _ s h)
        · exact hP.refuse _ _ _ h
    · exact hP.refuse _ _ _ h
  · exact hP.refuse _ _ _ h

theorem requestSettingWrite (d : Desk) (payload : List Byte) (h : P s) : P (requestSettingWrite d payload s) := by
  unfold Machine.requestSettingWrite
  split
  · split
    · exact hP.refuse _ _ _ h
    · split
      · exact hP.refuse _ _ _ h
      · dsimp only
        refine hP.reply _ _ _ _ ?_
        unfold afterSetting
        split
        · exact hP.kept (hP.set _ _ s h) (flowAfterWrite_kept _)
        · exact hP.set _ _ s h
  · exact hP.refuse _ _ _ h

theorem requestSave (d : Desk) (payload : List Byte) (h : P s) : P (requestSave d payload s) := by
  unfold Machine.requestSave
  split
  · split
    · exact hP.refuse _ _ _ h
    · split
      · exact hP.refuse _ _ _ h
      · split
        · exact hP.reply _ _ _ _ (hP.other s _ rfl rfl rfl rfl h)
        · exact hP.reply _ _ _ _ (hP.other s _ rfl rfl rfl rfl h)
  · exact hP.refuse _ _ _ h

theorem handleRequest (d : Desk) (t : Byte) (payload : List Byte) (h : P s) : P (handleRequest d t payload s) := by
  unfold Machine.handleRequest
  split
  case h_2 => exact hP.requestText d payload h
  case h_10 => exact hP.requestDictAdd d payload h
  case h_11 => exact hP.requestDictDelete d payload h
  case h_13 => exact hP.requestDirWrite d payload h
  case h_14 => exact hP.requestWidthWrite d payload h
  case h_16 => exact hP.requestSettingWrite d payload h
  case h_17 => exact hP.requestSave d payload h
  all_goals exact hP.kept h (by simp)

theorem received : Received P where
  link d f s h := hP.kept h (by simp)
  request d t payload s h := hP.handleRequest d t payload h

end Commissioned

end Sys2Proof.Proofs

namespace Sys2Proof.Proofs

open Sys2Proof.Machine

/-- An event leaves the directory, the dictionary, the settings and the store's bytes. -/
theorem event_keeps {c : Instr} {s t : State} (isE : isEvent c = true) (run : exec c s = .next t) :
    t.store.cells = s.store.cells ∧ t.dir = s.dir ∧ t.dict = s.dict ∧ t.settings = s.settings := by
  have of_kept {u : State} (e : u.kept = s.kept) (next : Host.Outcome.next (φ := Fault) (ρ := Refusal) u = .next t) :
      t.store.cells = s.store.cells ∧ t.dir = s.dir ∧ t.dict = s.dict ∧ t.settings = s.settings := by
    obtain rfl := Host.Outcome.next.inj next
    exact ⟨keepsCells e, keepsDir e, keepsDict e, keepsSettings e⟩
  cases c
  case saveComplete =>
    obtain rfl := Host.Outcome.next.inj run
    rw [exec_saveComplete] at run
    unfold endSave
    split <;> exact ⟨rfl, rfl, rfl, rfl⟩
  case frameSent d => exact of_kept (frameSent_kept d s) run
  case breakCondition d => exact of_kept (breakLink_kept d s) run
  case holdTimerExpiry d => exact of_kept (holdExpired_kept d s) run
  case silenceTimerExpiry d => exact of_kept (silenceExpired_kept d s) run
  case heldTimeout j => exact of_kept (heldExpired_kept j s) run
  case confirmTimerExpiry => exact of_kept (confirmExpired_kept s) run
  case flashTimeout => exact of_kept (flashExpired_kept s) run
  case cutTimerExpiry => exact of_kept (cutExpired_kept s) run
  case lineBuild => exact of_kept (takeBuild_kept s) run
  case confirm k => exact of_kept (confirmed_kept k s) run
  case flashDone r => exact of_kept (flashDone_kept _ s) run
  case stripCode p c => exact of_kept (stripRead_kept p c s) run
  case stripIn p c => exact of_kept (stripFitted_kept p c s) run
  case stripOut p => exact of_kept (stripRemoved_kept p s) run
  case lampChanged => exact of_kept (lampChanged_kept s) run
  case clear => exact of_kept (clearFault_kept s) run
  case moveDone => exact of_kept (moveDone_kept s) run
  case cutDone => exact of_kept (cutDone_kept s) run
  case cutButton => exact of_kept (askCut_kept s) run
  case magazineLoaded n => exact of_kept (magazineLoaded_kept _ s) run
  case magazineOut => exact of_kept (magazineOut_kept s) run
  case takeUpIn => exact of_kept (switchEvent_kept _ s) run
  case takeUpOut => exact of_kept (switchEvent_kept _ s) run
  case doorOpen => exact of_kept (switchEvent_kept _ s) run
  case doorClosed => exact of_kept (switchEvent_kept _ s) run
  case ready => exact of_kept (printerReady_kept s) run
  case paperOut => exact of_kept (printerStops_kept _ s) run
  case fault => exact of_kept (printerStops_kept _ s) run
  case accept =>
    refine of_kept (u := accepted s) ?_ run
    unfold accepted
    split
    · rfl
    · simp
  case returnToMarking d => exact of_kept (State.modLink_kept d _ s) run
  all_goals exact absurd isE Bool.false_ne_true

namespace Commissioned

variable {P : State → Prop} (hP : Commissioned P) {s : State}
include hP

theorem exec {c : Instr} {t : State} (run : Machine.exec c s = .next t) (h : P s) : P t := by
  refine hP.received.exec (hP.started s h) (fun isE run => ?_) run h
  obtain ⟨cells, dir, dict, settings⟩ := event_keeps isE run
  exact hP.other s t dir dict settings cells h

theorem step {t : State} (run : Machine.step s = .next t) (h : P s) : P t := by
  unfold Machine.step at run
  split at run
  · exact Host.Outcome.next.inj run ▸ h
  · exact hP.exec run (hP.other s _ rfl rfl rfl rfl h)

end Commissioned

/-! ## The settings (R47, R164) -/

/-- The order of the thresholds and of the cut's two settings. -/
def OrderedSettings (t : Settings) : Prop :=
  t.fullReserve ≤ t.low ∧ t.low < t.high ∧ t.high ≤ 2048 ∧ t.cutMargin ≤ t.cutReserve

/-- Raising LOW to FULL-RESERVE and HIGH above LOW restores the order. -/
theorem ordered_orderThresholds (t : Settings) (full : t.fullReserve ≤ 2047) (low : t.low ≤ 2047) (high : t.high ≤ 2048)
    (cut : t.cutMargin ≤ t.cutReserve) : OrderedSettings t.orderThresholds := by
  refine ⟨?_, ?_, ?_, cut⟩ <;> simp only [Settings.orderThresholds] <;> omega

theorem ordered_orderCut (t : Settings) (full : t.fullReserve ≤ t.low) (low : t.low < t.high) (high : t.high ≤ 2048) :
    OrderedSettings t.orderCut :=
  ⟨full, low, high, le_max_right _ _⟩

theorem clampInt_toNat_le (lo hi : Nat) (v : Int) (h : lo ≤ hi) : (clampInt lo hi v).toNat ≤ hi := by
  unfold clampInt
  omega

/-- A setting set to a value of its range keeps the order. -/
theorem ordered_set (id n lo hi : Nat) (t : Settings) (range : settingRange id = some (lo, hi)) (le : n ≤ hi)
    (h : OrderedSettings t) : OrderedSettings (t.set id n) := by
  obtain ⟨full, low, high, cut⟩ := h
  have lowFits : t.low ≤ 2047 := by omega
  have fullFits : t.fullReserve ≤ 2047 := by omega
  unfold Settings.set
  split
  case h_10 => cases range; exact ordered_orderThresholds _ le lowFits high cut
  case h_11 => cases range; exact ordered_orderThresholds _ fullFits le high cut
  case h_12 => cases range; exact ordered_orderThresholds _ fullFits lowFits le cut
  case h_23 => exact ordered_orderCut _ full low high
  case h_24 => exact ordered_orderCut _ full low high
  all_goals exact ⟨full, low, high, cut⟩

/-- The range of a setting is none or has its ends in order. -/
theorem settingRange_ordered (id lo hi : Nat) (range : settingRange id = some (lo, hi)) : lo ≤ hi := by
  unfold settingRange at range
  split at range <;> cases range <;> decide

theorem ordered_write (id : Nat) (v : Int) (t : Settings) (h : OrderedSettings t) : OrderedSettings (t.write id v) := by
  unfold Settings.write
  split
  · rename_i lo hi range
    exact ordered_set id _ lo hi t range (clampInt_toNat_le lo hi v (settingRange_ordered id lo hi range)) h
  · exact h

theorem ordered_default : OrderedSettings Config.settings := by
  unfold OrderedSettings
  decide

theorem ordered_loadSettings (values : Vector Int 41) : OrderedSettings (loadSettings values) := by
  unfold loadSettings
  generalize List.finRange 41 = ids
  have start := ordered_default
  revert start
  generalize Config.settings = t
  induction ids generalizing t with
  | nil => exact id
  | cons i rest ih => exact fun h => ih _ (ordered_write _ _ t h)

theorem ordered_loadSettingsRegion (r : SettingsRegion) : OrderedSettings (loadSettingsRegion r).settings := by
  unfold loadSettingsRegion
  split
  · exact ordered_loadSettings _
  · exact ordered_default

theorem settingsOrdered_commissioned : Commissioned SettingsOrdered where
  other _ _ _ _ settings _ h := by simpa only [SettingsOrdered, settings] using h
  described _ _ _ _ h := h
  widened _ _ h := h
  added _ _ _ _ h := h
  replaced _ _ _ h := h
  removed _ _ h := h
  set id v s h := ordered_write id v s.settings h
  appended _ _ _ h := h
  started s _ := ordered_loadSettingsRegion s.serial.settings

/-! ## The strip codes (R78) -/

/-- No two font descriptors hold one strip code. -/
def DistinctStrips (ds : Vector Descriptor 64) : Prop :=
  ∀ m n : Fin 64, m ≠ n → ∀ c, ds[m].strip = some c → ds[n].strip ≠ some c

theorem stripHeld_false (ds : Vector Descriptor 64) (n : Fin 64) (c : Nat) :
    stripHeld ds n c = false ↔ ∀ m : Fin 64, m ≠ n → ds[m].strip ≠ some c := by
  simp [stripHeld]

/-- A descriptor whose strip code no other font holds keeps the codes distinct. -/
theorem distinctStrips_put (ds : Vector Descriptor 64) (n : Fin 64) (x : Descriptor)
    (free : ∀ c, x.strip = some c → stripHeld ds n c = false) (h : DistinctStrips ds) : DistinctStrips (put ds n x) := by
  intro a b ab c ha hb
  have at_ (m : Fin 64) : (put ds n x)[m] = if n = m then x else ds[m] := by simp [Fin.ext_iff]
  rw [at_] at ha hb
  by_cases ea : n = a <;> by_cases eb : n = b
  · exact ab (ea.symm.trans eb)
  · rw [if_pos ea] at ha
    rw [if_neg eb] at hb
    exact (stripHeld_false ds n c).1 (free c ha) b (Ne.symm eb) hb
  · rw [if_neg ea] at ha
    rw [if_pos eb] at hb
    exact (stripHeld_false ds n c).1 (free c hb) a (Ne.symm ea) ha
  · rw [if_neg ea] at ha
    rw [if_neg eb] at hb
    exact h a b ab c ha hb

theorem stripTaken_false (s : State) (n : Fin 64) (x : Descriptor) :
    stripTaken s n x = false ↔ ∀ c, x.strip = some c → stripHeld s.dir.desc n c = false := by
  unfold stripTaken
  cases x.strip <;> simp

theorem distinctStrips_empty : DistinctStrips Config.emptyDirectory.desc := by
  intro m _ _ c hm
  simp [Config.emptyDirectory, Descriptor.strip] at hm

/-- A descriptor loaded with a strip code that another holds is made EMPTY (R184). -/
theorem distinctStrips_loadDescriptor (stored ds : Vector Descriptor 64) (n : Fin 64) (h : DistinctStrips ds) :
    DistinctStrips (loadDescriptor stored ds n) := by
  unfold loadDescriptor
  dsimp only
  generalize stored[n] = x
  cases strip : x.strip with
  | none =>
    dsimp only
    split
    · exact distinctStrips_put ds n x (by simp [strip]) h
    · exact h
  | some c =>
    dsimp only
    split
    · rename_i free
      rw [Bool.and_eq_true, Bool.not_eq_true'] at free
      exact distinctStrips_put ds n x (fun d hd => Option.some.inj (strip.symm.trans hd) ▸ free.2) h
    · exact h

theorem distinctStrips_loadDescriptors (stored : Vector Descriptor 64) : DistinctStrips (loadDescriptors stored) := by
  unfold loadDescriptors
  generalize List.finRange 64 = ns
  have start := distinctStrips_empty
  revert start
  generalize Config.emptyDirectory.desc = ds
  induction ns generalizing ds with
  | nil => exact id
  | cons n rest ih => exact fun h => ih _ (distinctStrips_loadDescriptor stored ds n h)

theorem distinctStrips_loadSettingsRegion (r : SettingsRegion) : DistinctStrips (loadSettingsRegion r).dir.desc := by
  unfold loadSettingsRegion
  split
  · exact distinctStrips_loadDescriptors _
  · exact distinctStrips_empty

theorem stripsDistinct_commissioned : Commissioned StripsDistinct where
  other _ _ dir _ _ _ h := by simpa only [StripsDistinct, dir] using h
  described n x s free h := distinctStrips_put s.dir.desc n x ((stripTaken_false s n x).1 free) h
  widened _ _ h := h
  added _ _ _ _ h := h
  replaced _ _ _ h := h
  removed _ _ h := h
  set _ _ _ h := h
  appended _ _ _ h := h
  started s _ := distinctStrips_loadSettingsRegion s.serial.settings

/-- Settles O55: every change of the settings, of the directory, of a position's strip and of the film keeps its own
invariant, and no other command writes what it reads. -/
theorem settingsAndStripsKept : Obligations.SettingsAndStripsKept := fun _ _ run =>
  ⟨settingsOrdered_commissioned.step run, stripsDistinct_commissioned.step run, mountedOnce_lasting.step run,
    filmSound_lasting.step run⟩

/-! ## The galley store's bytes -/

theorem bytesCanonical_commissioned : Commissioned BytesCanonical where
  other _ _ _ _ _ cells h := by simpa only [BytesCanonical, cells] using h
  described _ _ _ _ h := h
  widened _ _ h := h
  added _ _ _ _ h := h
  replaced _ _ _ h := h
  removed _ _ h := h
  set _ _ _ h := h
  appended j bytes s h := appendText_wf j bytes s h
  started _ _ := rfl

end Sys2Proof.Proofs

/-! PROOFS. The exception dictionary (07): what its writes and its loading keep (R128, R184). -/

namespace Sys2Proof.Proofs

open Sys2Proof.Machine

/-! ## Counting entries -/

/-- A chain replaced changes the count by the difference of the lengths. -/
theorem dictCount_put (d : Dictionary) (b : Fin 256) (chain : List DictEntry) :
    dictCount (put d b chain) + d[b].length = dictCount d + chain.length := by
  have hb : b.val < (d.toList.map List.length).length := by simp
  have before : (d.toList.map List.length).sum =
      ((d.toList.map List.length).take b).sum + d[b].length + ((d.toList.map List.length).drop (b + 1)).sum := by
    conv_lhs => rw [← List.take_append_drop b.val (d.toList.map List.length), List.drop_eq_getElem_cons hb]
    simp [Nat.add_assoc]
  have after : ((put d b chain).toList.map List.length).sum =
      ((d.toList.map List.length).take b).sum + chain.length + ((d.toList.map List.length).drop (b + 1)).sum := by
    have set : (put d b chain).toList.map List.length = (d.toList.map List.length).set b chain.length := by
      simp [put, Vector.toList_set, List.map_set]
    rw [set, List.sum_set, if_pos hb]
  unfold dictCount
  omega

theorem dictCount_empty : dictCount Config.emptyDictionary = 0 := by
  rw [dictCount, Config.emptyDictionary, Vector.toList_replicate, List.map_replicate, List.sum_replicate]
  rfl

/-! ## Sound chains -/

/-- A chain of a bucket: its words hash to the bucket, each once. -/
def ChainOfBucket (b : Fin 256) (chain : List DictEntry) : Prop :=
  (∀ e ∈ chain, bucketOf e.word = b) ∧ (chain.map (·.word)).Nodup

/-- Every bucket holds a chain of its own. -/
def ChainsSound (d : Dictionary) : Prop := ∀ b : Fin 256, ChainOfBucket b d[b]

theorem chainsSound_put (d : Dictionary) (b : Fin 256) (chain : List DictEntry) (new : ChainOfBucket b chain)
    (h : ChainsSound d) : ChainsSound (put d b chain) := by
  intro a
  by_cases e : b = a
  · subst e
    rw [put_same]
    exact new
  · rw [put_other _ _ _ _ e]
    exact h a

theorem chainsSound_empty : ChainsSound Config.emptyDictionary := by
  intro b
  simp [Config.emptyDictionary, ChainOfBucket]

/-- A word without an entry stands in no entry of its chain. -/
theorem lookupWord_isNone (d : Dictionary) (w : List Byte) :
    (lookupWord d w).isNone = true ↔ ∀ e ∈ d[bucketOf w], e.word ≠ w := by
  simp [lookupWord]

theorem chainOfBucket_filter {b : Fin 256} {chain : List DictEntry} (p : DictEntry → Bool) (h : ChainOfBucket b chain) :
    ChainOfBucket b (chain.filter p) :=
  ⟨fun e he => h.1 e (List.mem_of_mem_filter he), h.2.sublist (List.filter_sublist.map _)⟩

theorem chainOfBucket_cons {e : DictEntry} {chain : List DictEntry} (new : ∀ x ∈ chain, x.word ≠ e.word)
    (h : ChainOfBucket (bucketOf e.word) chain) : ChainOfBucket (bucketOf e.word) (e :: chain) := by
  refine ⟨fun x hx => ?_, ?_⟩
  · rcases List.mem_cons.1 hx with rfl | hx
    · rfl
    · exact h.1 x hx
  · refine List.nodup_cons.2 ⟨fun mem => ?_, h.2⟩
    obtain ⟨x, hx, same⟩ := List.mem_map.1 mem
    exact new x hx same

theorem chainOfBucket_append {e : DictEntry} {chain : List DictEntry} (new : ∀ x ∈ chain, x.word ≠ e.word)
    (h : ChainOfBucket (bucketOf e.word) chain) : ChainOfBucket (bucketOf e.word) (chain ++ [e]) := by
  have perm : List.Perm (e :: chain) (chain ++ [e]) := (List.perm_append_singleton e chain).symm
  obtain ⟨hash, once⟩ := chainOfBucket_cons new h
  exact ⟨fun x hx => hash x (perm.mem_iff.2 hx), (perm.map _).nodup_iff.1 once⟩

/-! ## The writes (R130, R131) -/

theorem chainsSound_dictRemove (w : List Byte) (d : Dictionary) (h : ChainsSound d) : ChainsSound (dictRemove w d) :=
  chainsSound_put _ _ _ (chainOfBucket_filter _ (h _)) h

theorem chainsSound_dictPush (e : DictEntry) (d : Dictionary) (new : ∀ x ∈ d[bucketOf e.word], x.word ≠ e.word)
    (h : ChainsSound d) : ChainsSound (dictPush e d) :=
  chainsSound_put _ _ _ (chainOfBucket_cons new (h _)) h

theorem dictCount_dictPush (e : DictEntry) (d : Dictionary) : dictCount (dictPush e d) = dictCount d + 1 := by
  have count := dictCount_put d (bucketOf e.word) (e :: d[bucketOf e.word])
  rw [List.length_cons] at count
  unfold dictPush
  omega

theorem dictCount_dictRemove_le (w : List Byte) (d : Dictionary) : dictCount (dictRemove w d) ≤ dictCount d := by
  have count := dictCount_put d (bucketOf w) (d[bucketOf w].filter fun e => decide (e.word ≠ w))
  have shorter := List.length_filter_le (fun e : DictEntry => decide (e.word ≠ w)) d[bucketOf w]
  unfold dictRemove
  omega

/-- The entry of a word that has one leaves. -/
theorem dictCount_dictRemove_lt (w : List Byte) (d : Dictionary) (found : (lookupWord d w).isSome = true) :
    dictCount (dictRemove w d) < dictCount d := by
  have count := dictCount_put d (bucketOf w) (d[bucketOf w].filter fun e => decide (e.word ≠ w))
  have shorter : (d[bucketOf w].filter fun e => decide (e.word ≠ w)).length < d[bucketOf w].length := by
    refine List.length_filter_lt_length_iff_exists.2 ?_
    simpa [lookupWord] using found
  unfold dictRemove
  omega

/-- The chain of a word whose entry has left holds no entry of it. -/
theorem dictRemove_absent (w : List Byte) (d : Dictionary) : ∀ x ∈ (dictRemove w d)[bucketOf w], x.word ≠ w := by
  intro x hx
  rw [dictRemove, put_same] at hx
  simpa using (List.mem_filter.1 hx).2

/-! ## Loading (R184) -/

/-- A dictionary being restored: sound chains, and the count of the entries restored so far. -/
def Restoring (p : Dictionary × Nat) : Prop := ChainsSound p.1 ∧ dictCount p.1 = p.2 ∧ p.2 ≤ Config.maxEntries

theorem restoring_restoreEntry (p : Dictionary × Nat) (e : DictEntry) (h : Restoring p) : Restoring (restoreEntry p e) := by
  obtain ⟨d, n⟩ := p
  obtain ⟨chains, count, room⟩ := h
  unfold restoreEntry
  dsimp only
  split
  · rename_i taken
    simp only [Bool.and_eq_true, decide_eq_true_eq] at taken
    obtain ⟨⟨-, absent⟩, free⟩ := taken
    have new := (lookupWord_isNone d (foldWord e.word)).1 absent
    have longer := dictCount_put d (bucketOf (foldWord e.word))
      (d[bucketOf (foldWord e.word)] ++ [{ e with word := foldWord e.word }])
    simp only [List.length_append, List.length_singleton] at longer
    refine ⟨chainsSound_put _ _ _ ?_ chains, ?_, free⟩
    · exact chainOfBucket_append (e := { e with word := foldWord e.word }) new (chains _)
    · dsimp only at count ⊢
      omega
  · exact ⟨chains, count, room⟩

theorem restoring_foldl (es : List DictEntry) (p : Dictionary × Nat) (h : Restoring p) :
    Restoring (es.foldl restoreEntry p) := by
  induction es generalizing p with
  | nil => exact h
  | cons e rest ih => exact ih _ (restoring_restoreEntry p e h)

theorem restoring_empty : Restoring (Config.emptyDictionary, 0) := ⟨chainsSound_empty, dictCount_empty, by decide⟩

theorem chainsSound_loadDictRegion (r : DictRegion) :
    dictCount (loadDictRegion r) ≤ Config.maxEntries ∧ ChainsSound (loadDictRegion r) := by
  unfold loadDictRegion
  split
  · obtain ⟨chains, count, room⟩ := restoring_foldl r.contents.chains.toList.flatten _ restoring_empty
    exact ⟨count.le.trans room, chains⟩
  · exact ⟨dictCount_empty.le.trans (Nat.zero_le _), chainsSound_empty⟩

/-! ## The invariant -/

theorem dictionarySound_iff (s : State) :
    DictionarySound s ↔ dictCount s.dict ≤ Config.maxEntries ∧ ChainsSound s.dict := Iff.rfl

theorem dictionarySound_commissioned : Commissioned DictionarySound where
  other _ _ _ dict _ _ h := by simpa only [DictionarySound, dict] using h
  described _ _ _ _ h := h
  widened _ _ h := h
  added e s absent room h :=
    ⟨(dictCount_dictPush e s.dict).le.trans room,
      chainsSound_dictPush e s.dict ((lookupWord_isNone s.dict e.word).1 absent) h.2⟩
  replaced e s found h :=
    ⟨(dictCount_dictPush e _).le.trans (Nat.le_trans (dictCount_dictRemove_lt e.word s.dict found) h.1),
      chainsSound_dictPush e _ (dictRemove_absent e.word s.dict) (chainsSound_dictRemove e.word s.dict h.2)⟩
  removed w s h := ⟨(dictCount_dictRemove_le w s.dict).trans h.1, chainsSound_dictRemove w s.dict h.2⟩
  set _ _ _ h := h
  appended _ _ _ h := h
  started s _ := chainsSound_loadDictRegion s.serial.dict

/-- Settles O56: DICT-ADD, DICT-DELETE and the loading of the region keep the chains sound and bounded, and no other command
writes the dictionary. -/
theorem dictionarySoundKept : Obligations.DictionarySoundKept := fun _ _ sound run =>
  dictionarySound_commissioned.step run sound

end Sys2Proof.Proofs

/-! PROOFS. The bytes of the galley store are written by TEXT alone (O60). -/

namespace Sys2Proof.Proofs

open Sys2Proof.Machine

/-- The basic changes leave the store's bytes. -/
theorem cells_stable (cells : List Host.Cell) : Stable fun s => s.store.cells = cells where
  other _ _ store _ _ _ _ h := by rw [store]; exact h
  moved _ _ _ h := h
  placed _ _ _ _ h := h
  freed j s h := (keepsCells (freeJob_kept j s)).trans h
  filled _ _ _ _ _ _ _ _ h := h

/-- A request that is no TEXT, taken with its checks, stores no byte. -/
theorem takeRequest_cells (d : Desk) (f : Frame) (s : State) (notText : f.type ≠ 0x11) :
    (takeRequest d f s).store.cells = s.store.cells := by
  have number : f.type.toNat ≠ 0x11 := fun e => notText (BitVec.eq_of_toNat_eq e)
  unfold takeRequest
  split
  · rfl
  · split
    · rfl
    · exact (cells_stable s.store.cells).handleRequest d f.type f.payload number rfl

theorem goodFrame_cells (d : Desk) (f : Frame) (s : State) (notText : f.type ≠ 0x11) :
    (goodFrame d f s).store.cells = s.store.cells := by
  unfold goodFrame
  dsimp only
  split
  · rfl
  · split
    · rfl
    · exact takeRequest_cells d f (restartSilence d s) notText

theorem takeKept_cells (d : Desk) (s : State) (notText : ∀ f, s.links[d].kept = some f → f.type ≠ 0x11) :
    (takeKept d s).store.cells = s.store.cells := by
  unfold takeKept
  split
  · rfl
  · rename_i f kept
    split
    · exact takeRequest_cells d f _ (notText f kept)
    · rfl

/-! ## Bytes that hold no type 0x11 -/

/-- The partial frame of a receiver holds no byte 0x11. -/
def NoText : Receiver → Prop
  | .hunt => True
  | .length => True
  | .body _ got => 0x11 ∉ got

/-- The store's bytes stand, and the partial frame of the link holds no byte 0x11. -/
def Textless (d : Desk) (cells : List Host.Cell) (s : State) : Prop :=
  s.store.cells = cells ∧ NoText s.links[d].rx

theorem textless_stable (d : Desk) (cells : List Host.Cell) : Stable (Textless d cells) where
  other s t store _ links _ _ h := by
    refine ⟨by rw [store]; exact h.1, ?_⟩
    rcases links d with rx | rx <;> rw [rx]
    · exact h.2
    · trivial
  moved _ _ _ h := h
  placed _ _ _ _ h := h
  freed j s h := ⟨(keepsCells (freeJob_kept j s)).trans h.1, h.2⟩
  filled _ _ _ _ _ _ _ _ h := h

variable {d : Desk} {cells : List Host.Cell} {s : State}

theorem Textless.setReceiver (rx : Receiver) (noText : NoText rx) (h : Textless d cells s) :
    Textless d cells (setReceiver d rx s) := ⟨h.1, by rwa [setReceiver_rx]⟩

theorem Textless.countBad (h : Textless d cells s) : Textless d cells (countBad d s) :=
  (textless_stable d cells).modLink d _ (fun _ => .inl rfl) h

theorem Textless.goodFrame (f : Frame) (notText : f.type ≠ 0x11) (h : Textless d cells s) :
    Textless d cells (goodFrame d f s) := by
  have stable := textless_stable d cells
  have number : f.type.toNat ≠ 0x11 := fun e => notText (BitVec.eq_of_toNat_eq e)
  have restarted : Textless d cells (restartSilence d s) := stable.modLink d _ (fun _ => .inl rfl) h
  unfold Machine.goodFrame
  dsimp only
  split
  · exact restarted.countBad
  · split
    · exact stable.modLink d _ (fun _ => .inl rfl) restarted
    · unfold takeRequest
      split
      · exact stable.refuse _ _ _ restarted
      · split
        · exact stable.refuse _ _ _ restarted
        · exact stable.handleRequest _ _ _ number restarted

theorem Textless.frameComplete (n : Nat) (body : List Byte) (noText : 0x11 ∉ body) (h : Textless d cells s) :
    Textless d cells (frameComplete d n body s) := by
  have hunting : Textless d cells (Machine.setReceiver d .hunt s) := h.setReceiver .hunt trivial
  unfold Machine.frameComplete
  dsimp only
  split
  · split
    · rename_i type rest
      exact hunting.goodFrame _ fun e => noText (e ▸ List.mem_cons_self)
    · exact hunting.countBad
  · exact hunting.countBad

theorem Textless.receiveByte (b : Byte) (noText : b ≠ 0x11) (h : Textless d cells s) :
    Textless d cells (receiveByte d s b) := by
  unfold Machine.receiveByte
  split
  · exact h
  · split
    · split
      · exact h.setReceiver .length trivial
      · exact h
    · split
      · exact h.setReceiver _ (by simp [NoText])
      · exact (h.setReceiver .hunt trivial).countBad
    · rename_i n got rx
      have joined : 0x11 ∉ got ++ [b] := by
        have before : NoText s.links[d].rx := h.2
        rw [rx] at before
        simp only [List.mem_append, List.mem_singleton]
        exact fun mem => mem.elim before fun e => noText e.symm
      split
      · exact h.setReceiver _ joined
      · exact h.frameComplete n _ joined

theorem Textless.receiveBytes (bytes : List Byte) (noText : 0x11 ∉ bytes) (h : Textless d cells s) :
    Textless d cells (receiveBytes d bytes s) := by
  induction bytes generalizing s with
  | nil => exact h
  | cons b rest ih =>
    rw [List.mem_cons, not_or] at noText
    exact ih noText.2 (h.receiveByte b (Ne.symm noText.1))

/-- Settles O60: TEXT's handler is the one that stores bytes, and bytes without 0x11 complete no frame of its type. -/
theorem onlyTextStoresBytes : Obligations.OnlyTextStoresBytes := by
  intro c s t run
  refine ⟨fun isE => event_keeps isE run, fun d f frame wellFormed listens notText => ?_,
    fun d isKept notText => ?_, fun d bytes isBad listens noText => ?_⟩
  · rw [exec_frame c d f s frame, receiveFrame_eq d _ _ s listens (frame_fits c d f frame wellFormed)] at run
    exact Host.Outcome.next.inj run ▸ goodFrame_cells d _ s notText
  · subst isKept
    exact Host.Outcome.next.inj run ▸ takeKept_cells d s notText
  · subst isBad
    have start : Textless d s.store.cells s := ⟨rfl, by rw [listens.1]; trivial⟩
    exact Host.Outcome.next.inj run ▸ (start.receiveBytes bytes noText).1

end Sys2Proof.Proofs

/-! PROOFS. Desk links: the frames that arrive, and the checks a request passes before it is handled (O1 to O4). -/

namespace Sys2Proof.Proofs

open Sys2Proof.Machine

/-- Settles O1: the front of the queue is the command of the step. -/
theorem stepRunsFrontCommand : Obligations.StepRunsFrontCommand := by
  intro c rest s front
  simp only [step, front]

/-! ## The request types and their levels (R22, R23) -/

/-- The highest level that may send a request of a type, by the type's number. -/
def levelNeeded (n : Nat) : Nat :=
  if n ∈ [0x30, 0x31, 0x32, 0x33, 0x34, 0x36, 0x37, 0x38, 0x39] then 0 else if n ∈ [0x20, 0x21] then 1 else 3

theorem requestLevel_of_mem (t : Byte) (known : t.toNat ∈ requestTypes) :
    requestLevel t = some (levelNeeded t.toNat) := by
  unfold requestLevel
  split
  case h_24 => simp_all [requestTypes]
  all_goals rename_i e; rw [e]; rfl

theorem requestLevel_eq_none (t : Byte) : requestLevel t = none ↔ t.toNat ∉ requestTypes := by
  constructor
  · intro none known
    rw [requestLevel_of_mem t known] at none
    cases none
  · intro unknown
    unfold requestLevel
    split
    case h_24 => rfl
    all_goals rename_i e; exact absurd (by rw [e]; decide) unknown

theorem allowed_iff (d : Desk) (t : Byte) (s : State) :
    Allowed d t s ↔ t.toNat ∈ requestTypes ∧ s.settings.deskLevel[d] ≤ levelNeeded t.toNat := by
  by_cases known : t.toNat ∈ requestTypes
  · simp [Allowed, requestLevel_of_mem t known, known]
  · simp [Allowed, (requestLevel_eq_none t).2 known, known]

/-! ## A request taken with its checks (R22) -/

theorem takeRequest_unknown (d : Desk) (f : Frame) (s : State) (unknown : f.type.toNat ∉ requestTypes) :
    takeRequest d f s = s.reply d f.type .unknown [] := by
  simp only [takeRequest, (requestLevel_eq_none f.type).2 unknown, refuse]

theorem takeRequest_denied (d : Desk) (f : Frame) (s : State) (known : f.type.toNat ∈ requestTypes)
    (above : levelNeeded f.type.toNat < s.settings.deskLevel[d]) : takeRequest d f s = s.reply d f.type .denied [] := by
  simp only [takeRequest, requestLevel_of_mem f.type known, if_pos above, refuse]

/-- A well-formed request command on a link that takes it has its frame's request taken, the silence timer restarted. -/
theorem exec_takes (c : Instr) (d : Desk) (f : Frame) (s : State) (frame : frameOf c = some (d, f))
    (wellFormed : c.wellFormed = true) (takes : Takes d s) :
    exec c s = .next (takeRequest d f (restartSilence d s)) := by
  rw [exec_frame c d f s frame, receiveFrame_eq d _ _ s takes.1 (frame_fits c d f frame wellFormed),
    goodFrame_taken d _ s takes]

theorem exec_handled (c : Instr) (d : Desk) (f : Frame) (s : State) (frame : frameOf c = some (d, f))
    (wellFormed : c.wellFormed = true) (takes : Takes d s) (allowed : Allowed d f.type s) :
    exec c s = .next (handleRequest d f.type f.payload (restartSilence d s)) := by
  rw [exec_takes c d f s frame wellFormed takes]
  exact congrArg _ (takeRequest_allowed d f (restartSilence d s) allowed)

/-! ## Payloads outside the coding (R22, check 3) -/

theorem modeOf_eq (n : Nat) : modeOf n = [Mode.set, .proofOnly, .proofThenSet, .setAndProof][n]? := by
  rcases n with _ | _ | _ | _ | _ <;> rfl

theorem classOf_eq (n : Nat) : classOf n = [JobClass.routine, .priority, .rush][n]? := by
  rcases n with _ | _ | _ | _ <;> rfl

theorem openForm_uncoded (p : List Byte) (h : payloadCoded ⟨0x10, p⟩ = false) : openForm p = none := by
  unfold openForm
  split
  · rename_i m c o e
    replace h : ¬ (m.toNat ≤ 3 ∧ c.toNat ≤ 2 ∧ o.toNat ≤ 3 ∧ e.toNat ≤ 1) := by simpa [payloadCoded] using h
    split
    · rename_i hm hc
      rw [modeOf_eq, List.getElem?_eq_some_iff] at hm
      rw [classOf_eq, List.getElem?_eq_some_iff] at hc
      obtain ⟨hm, -⟩ := hm
      obtain ⟨hc, -⟩ := hc
      refine if_neg fun rest => h ⟨?_, ?_, rest⟩
      · exact Nat.le_of_lt_succ hm
      · exact Nat.le_of_lt_succ hc
    · rfl
  · rfl

/-- The action of DECIDE is one of the four, with a word index for BREAK-BEFORE alone. -/
theorem actionForm_uncoded (n t1 t2 a : Byte) (rest : List Byte)
    (h : payloadCoded ⟨0x14, n :: t1 :: t2 :: a :: rest⟩ = false) : actionForm a rest = none := by
  unfold actionForm
  split
  case h_5 => rfl
  all_goals simp_all [payloadCoded]

theorem oneWordForm_eq (w : Byte) (r : List Byte) :
    oneWordForm (w :: r) = if r.length = w.toNat then some r else none := by
  by_cases long : w.toNat ≤ r.length
  · rcases left : r.drop w.toNat with _ | ⟨b, ps⟩
    · have ends : r.length ≤ w.toNat := List.drop_eq_nil_iff.1 left
      simp [oneWordForm, wordForm, left, Nat.le_antisymm ends long, List.take_of_length_le ends]
    · have more : r.length ≠ w.toNat := fun e => by simp [← e] at left
      simp [oneWordForm, wordForm, left, long, more]
  · have less : r.length ≠ w.toNat := by omega
    simp [oneWordForm, wordForm, long, less]

/-- The word and the breaks of DICT-ADD fill the payload. -/
theorem addForm_uncoded (w : Byte) (rest : List Byte)
    (h : rest.length ≠ w.toNat + 1 + (rest.getD w.toNat 0).toNat) : addForm (w :: rest) = none := by
  by_cases long : w.toNat ≤ rest.length
  · rcases left : rest.drop w.toNat with _ | ⟨b, ps⟩
    · simp [addForm, wordForm, long, left]
    · have at_ : rest.getD w.toNat 0 = b := by
        have head : (rest.drop w.toNat)[0]? = some b := by rw [left]; rfl
        rw [List.getElem?_drop, Nat.add_zero] at head
        rw [List.getD_eq_getElem?_getD, head]
        rfl
      have count : rest.length = w.toNat + (ps.length + 1) := by
        have := congrArg List.length left
        simp only [List.length_drop, List.length_cons] at this
        omega
      have differ : b.toNat ≠ ps.length := by
        rw [at_] at h
        omega
      simp [addForm, wordForm, long, left, differ]
  · simp [addForm, wordForm, long]

theorem kindOf_range (n : Nat) (k : FontKind) (h : kindOf n = some k) : 1 ≤ n ∧ n ≤ 3 := by
  unfold kindOf at h
  split at h <;> cases h <;> decide

theorem dirForm_uncoded (n : Byte) (rest : List Byte) (h : payloadCoded ⟨0x30, n :: rest⟩ = false) :
    dirForm rest = none := by
  unfold dirForm
  split
  · rename_i t fields
    split
    · rename_i zero
      refine if_neg fun empty => ?_
      simp [payloadCoded, empty, zero] at h
    · rename_i four
      unfold gateForm
      split
      · simp [payloadCoded, four] at h
      · rfl
    · rename_i k font _ _
      have coded := kindOf_range t.toNat k font
      unfold fontForm
      split
      · refine if_neg fun hyph => ?_
        simp [payloadCoded, coded, hyph] at h
      · rfl
    · rfl
  · rfl

theorem requestTest_uncoded (d : Desk) (p : List Byte) (s : State) (h : payloadCoded ⟨0x37, p⟩ = false) :
    requestTest d p s = refuse d 0x37 .badValue s := by
  unfold requestTest
  split
  · rename_i b
    have big : ¬ b.toNat ≤ 2 := by simpa [payloadCoded] using h
    have unknown : testOf b.toNat = none := by
      unfold testOf
      split <;> first | rfl | omega
    simp only [unknown]
  · rfl

theorem requestTrimWrite_uncoded (d : Desk) (p : List Byte) (s : State) (h : payloadCoded ⟨0x32, p⟩ = false) :
    requestTrimWrite d p s = refuse d 0x32 .badValue s := by
  unfold requestTrimWrite
  split
  · exact if_pos (by simpa [payloadCoded] using h)
  · rfl

theorem requestSave_uncoded (d : Desk) (p : List Byte) (s : State) (h : payloadCoded ⟨0x34, p⟩ = false) :
    requestSave d p s = refuse d 0x34 .badValue s := by
  unfold requestSave
  split
  · exact if_pos (by simpa [payloadCoded] using h)
  · rfl

theorem requestProofEnable_uncoded (d : Desk) (p : List Byte) (s : State) (h : payloadCoded ⟨0x39, p⟩ = false) :
    requestProofEnable d p s = refuse d 0x39 .badValue s := by
  unfold requestProofEnable
  split
  · exact if_pos (by simpa [payloadCoded] using h)
  · rfl

theorem requestText_uncoded (d : Desk) (p : List Byte) (s : State) (h : payloadCoded ⟨0x11, p⟩ = false) :
    requestText d p s = refuse d 0x11 .badValue s := by
  unfold requestText
  split
  · exact if_neg (by simpa [payloadCoded] using h)
  · rfl

theorem requestDecide_uncoded (d : Desk) (p : List Byte) (s : State) (h : payloadCoded ⟨0x14, p⟩ = false) :
    requestDecide d p s = refuse d 0x14 .badValue s := by
  unfold requestDecide
  split
  · simp only [actionForm_uncoded _ _ _ _ _ h]
  · rfl

theorem requestDictAdd_uncoded (d : Desk) (p : List Byte) (s : State) (h : payloadCoded ⟨0x20, p⟩ = false) :
    requestDictAdd d p s = refuse d 0x20 .badValue s := by
  have form : addForm p = none := by
    rcases p with _ | ⟨w, rest⟩
    · rfl
    · exact addForm_uncoded w rest (by simpa [payloadCoded] using h)
  simp only [requestDictAdd, form]

theorem requestDictDelete_uncoded (d : Desk) (p : List Byte) (s : State) (h : payloadCoded ⟨0x21, p⟩ = false) :
    requestDictDelete d p s = refuse d 0x21 .badValue s := by
  have form : oneWordForm p = none := by
    rcases p with _ | ⟨w, word⟩
    · rfl
    · rw [oneWordForm_eq]
      exact if_neg (by simpa [payloadCoded] using h)
  simp only [requestDictDelete, form]

theorem requestDictLookup_uncoded (d : Desk) (p : List Byte) (s : State) (h : payloadCoded ⟨0x22, p⟩ = false) :
    requestDictLookup d p s = refuse d 0x22 .badValue s := by
  have form : oneWordForm p = none := by
    rcases p with _ | ⟨w, word⟩
    · rfl
    · rw [oneWordForm_eq]
      exact if_neg (by simpa [payloadCoded] using h)
  simp only [requestDictLookup, form]

theorem requestDirWrite_uncoded (d : Desk) (p : List Byte) (s : State) (h : payloadCoded ⟨0x30, p⟩ = false) :
    requestDirWrite d p s = refuse d 0x30 .badValue s := by
  unfold requestDirWrite
  split
  · simp only [dirForm_uncoded _ _ h]
  · rfl

theorem requestWidthWrite_uncoded (d : Desk) (p : List Byte) (s : State) (h : payloadCoded ⟨0x31, p⟩ = false) :
    requestWidthWrite d p s = refuse d 0x31 .badValue s := by
  unfold requestWidthWrite
  split
  · rename_i t first ws
    refine if_neg fun coded => ?_
    obtain ⟨some, fits, low, high⟩ := coded
    simp [payloadCoded, some, fits, low, high] at h
  · rfl

theorem requestClose_uncoded (d : Desk) (p : List Byte) (s : State) (h : payloadCoded ⟨0x12, p⟩ = false) :
    requestClose d p s = refuse d 0x12 .badValue s := by
  unfold requestClose
  split
  · simp [payloadCoded, fixedLength] at h
  · rfl

theorem requestCancel_uncoded (d : Desk) (p : List Byte) (s : State) (h : payloadCoded ⟨0x13, p⟩ = false) :
    requestCancel d p s = refuse d 0x13 .badValue s := by
  unfold requestCancel
  split
  · simp [payloadCoded, fixedLength] at h
  · rfl

theorem requestRelease_uncoded (d : Desk) (p : List Byte) (s : State) (h : payloadCoded ⟨0x15, p⟩ = false) :
    requestRelease d p s = refuse d 0x15 .badValue s := by
  unfold requestRelease
  split
  · simp [payloadCoded, fixedLength] at h
  · rfl

theorem requestProbe_uncoded (d : Desk) (p : List Byte) (s : State) (h : payloadCoded ⟨0x16, p⟩ = false) :
    requestProbe d p s = refuse d 0x16 .badValue s := by
  unfold requestProbe
  split
  · simp [payloadCoded, fixedLength] at h
  · rfl

theorem requestQueryJob_uncoded (d : Desk) (p : List Byte) (s : State) (h : payloadCoded ⟨0x17, p⟩ = false) :
    requestQueryJob d p s = refuse d 0x17 .badValue s := by
  unfold requestQueryJob
  split
  · simp [payloadCoded, fixedLength] at h
  · rfl

theorem requestQueryMachine_uncoded (d : Desk) (p : List Byte) (s : State) (h : payloadCoded ⟨0x18, p⟩ = false) :
    requestQueryMachine d p s = refuse d 0x18 .badValue s := by
  unfold requestQueryMachine
  split
  · simp [payloadCoded, fixedLength] at h
  · rfl

theorem requestSettingWrite_uncoded (d : Desk) (p : List Byte) (s : State) (h : payloadCoded ⟨0x33, p⟩ = false) :
    requestSettingWrite d p s = refuse d 0x33 .badValue s := by
  unfold requestSettingWrite
  split
  · simp [payloadCoded, fixedLength] at h
  · rfl

theorem requestNoticeMask_uncoded (d : Desk) (p : List Byte) (s : State) (h : payloadCoded ⟨0x35, p⟩ = false) :
    requestNoticeMask d p s = refuse d 0x35 .badValue s := by
  unfold requestNoticeMask
  split
  · simp [payloadCoded, fixedLength] at h
  · rfl

theorem requestCut_uncoded (d : Desk) (p : List Byte) (s : State) (h : payloadCoded ⟨0x36, p⟩ = false) :
    requestCut d p s = refuse d 0x36 .badValue s := by
  unfold requestCut
  split
  · simp [payloadCoded, fixedLength] at h
  · rfl

theorem requestProofConfig_uncoded (d : Desk) (p : List Byte) (s : State) (h : payloadCoded ⟨0x38, p⟩ = false) :
    requestProofConfig d p s = refuse d 0x38 .badValue s := by
  unfold requestProofConfig
  split
  · simp [payloadCoded, fixedLength] at h
  · rfl

theorem requestLinkReset_uncoded (d : Desk) (p : List Byte) (s : State) (h : payloadCoded ⟨0x3F, p⟩ = false) :
    requestLinkReset d p s = refuse d 0x3F .badValue s := by
  unfold requestLinkReset
  split
  · simp [payloadCoded, fixedLength] at h
  · rfl

/-- Every request answers a payload outside the coding with BAD-VALUE. -/
theorem handleRequest_uncoded (d : Desk) (t : Byte) (p : List Byte) (s : State) (known : t.toNat ∈ requestTypes)
    (h : payloadCoded ⟨t, p⟩ = false) : handleRequest d t p s = refuse d t .badValue s := by
  have eq {n : Byte} (e : t.toNat = n.toNat) : t = n := BitVec.eq_of_toNat_eq e
  simp only [requestTypes, List.mem_cons, List.not_mem_nil, or_false] at known
  rcases known with e | e | e | e | e | e | e | e | e | e | e | e | e | e | e | e | e | e | e | e | e | e | e
  · obtain rfl := eq (n := 0x10) e
    show requestOpen d p s = _
    simp only [requestOpen, openForm_uncoded p h]
  · obtain rfl := eq (n := 0x11) e
    exact requestText_uncoded d p s h
  · obtain rfl := eq (n := 0x12) e
    exact requestClose_uncoded d p s h
  · obtain rfl := eq (n := 0x13) e
    exact requestCancel_uncoded d p s h
  · obtain rfl := eq (n := 0x14) e
    exact requestDecide_uncoded d p s h
  · obtain rfl := eq (n := 0x15) e
    exact requestRelease_uncoded d p s h
  · obtain rfl := eq (n := 0x16) e
    exact requestProbe_uncoded d p s h
  · obtain rfl := eq (n := 0x17) e
    exact requestQueryJob_uncoded d p s h
  · obtain rfl := eq (n := 0x18) e
    exact requestQueryMachine_uncoded d p s h
  · obtain rfl := eq (n := 0x20) e
    exact requestDictAdd_uncoded d p s h
  · obtain rfl := eq (n := 0x21) e
    exact requestDictDelete_uncoded d p s h
  · obtain rfl := eq (n := 0x22) e
    exact requestDictLookup_uncoded d p s h
  · obtain rfl := eq (n := 0x30) e
    exact requestDirWrite_uncoded d p s h
  · obtain rfl := eq (n := 0x31) e
    exact requestWidthWrite_uncoded d p s h
  · obtain rfl := eq (n := 0x32) e
    exact requestTrimWrite_uncoded d p s h
  · obtain rfl := eq (n := 0x33) e
    exact requestSettingWrite_uncoded d p s h
  · obtain rfl := eq (n := 0x34) e
    exact requestSave_uncoded d p s h
  · obtain rfl := eq (n := 0x35) e
    exact requestNoticeMask_uncoded d p s h
  · obtain rfl := eq (n := 0x36) e
    exact requestCut_uncoded d p s h
  · obtain rfl := eq (n := 0x37) e
    exact requestTest_uncoded d p s h
  · obtain rfl := eq (n := 0x38) e
    exact requestProofConfig_uncoded d p s h
  · obtain rfl := eq (n := 0x39) e
    exact requestProofEnable_uncoded d p s h
  · obtain rfl := eq (n := 0x3F) e
    exact requestLinkReset_uncoded d p s h

/-- A payload of another length than the one of its type is outside the coding. -/
theorem payloadCoded_of_length (f : Frame) (n : Nat) (one : fixedLength f.type = some n) (other : f.payload.length ≠ n) :
    payloadCoded f = false := by
  obtain ⟨t, p⟩ := f
  unfold payloadCoded
  dsimp only at one other ⊢
  split
  case h_13 => simpa [one] using other
  all_goals rename_i e; simp only [fixedLength, e, Option.some.injEq, reduceCtorEq] at one
  all_goals
    subst one
    split
    · simp at other
    · rfl

/-- Settles O2: a request command comes to the request of its frame, whose type, level and payload are checked in turn. -/
theorem requestChecksInOrder : Obligations.RequestChecksInOrder := by
  have uncoded (c : Instr) (d : Desk) (f : Frame) (s : State) (frame : frameOf c = some (d, f))
      (wellFormed : c.wellFormed = true) (takes : Takes d s) (allowed : Allowed d f.type s)
      (h : payloadCoded f = false) : exec c s = .next (s.answered d f.type .badValue []) := by
    rw [exec_handled c d f s frame wellFormed takes allowed,
      handleRequest_uncoded d f.type f.payload _ ((allowed_iff d f.type s).1 allowed).1 h]
    rfl
  refine ⟨?unknown, ?levels, ?lengths, uncoded, ?types⟩
  case unknown =>
    intro d t p s fits unknown takes
    rw [exec_frame _ d ⟨t, p⟩ s rfl, receiveFrame_eq d t p s takes.1 fits, goodFrame_taken d _ s takes,
      takeRequest_unknown d _ _ unknown]
    rfl
  case levels =>
    intro c d f s frame wellFormed takes known needed
    refine ⟨fun above => ?_, fun below => ?_⟩
    · rw [exec_takes c d f s frame wellFormed takes]
      exact congrArg _ (takeRequest_denied d f (restartSilence d s) known above)
    · exact exec_handled c d f s frame wellFormed takes ((allowed_iff d f.type s).2 ⟨known, below⟩)
  case lengths =>
    intro c d f n s frame wellFormed takes allowed one other
    exact uncoded c d f s frame wellFormed takes allowed (payloadCoded_of_length f n one other)
  case types =>
    intro d type s anyLevel levelOne levelZero desk
    refine ⟨?_, ?_, rfl⟩
    · simp only [requestTypes, anyLevel, levelOne, levelZero, List.mem_append, List.mem_cons, List.not_mem_nil, or_false]
      omega
    · rw [allowed_iff]
      generalize type.toNat = n
      simp only [levelNeeded, requestTypes, anyLevel, levelOne, levelZero, List.mem_cons, List.not_mem_nil, or_false]
      split_ifs <;> omega

end Sys2Proof.Proofs

/-! PROOFS. Desk links, continued: frames kept, dropped and bad (O3, O4), frames out (O5), the timers (O6), abandonment
(O7). -/

namespace Sys2Proof.Proofs

open Sys2Proof.Machine

/-! ## Frames kept and dropped (R22) -/

/-- Two changes of a link that make the same link of it. -/
theorem modLink_congr {d : Desk} {f g : Link → Link} {s : State} (h : f s.links[d] = g s.links[d]) :
    s.modLink d f = s.modLink d g := by
  simp only [State.modLink, h]

theorem countBad_eq (d : Desk) (s : State) :
    countBad d s = s.modLink d fun l =>
      { l with badFrames := if l.badFrames < 65535 then l.badFrames + 1 else l.badFrames } := rfl

theorem goodFrame_dropped (d : Desk) (f : Frame) (s : State) (keeps : s.links[d].kept.isSome = true) :
    goodFrame d f s = countBad d (restartSilence d s) := by
  have still : (restartSilence d s).links[d].kept.isSome = true := by simpa [restartSilence] using keeps
  simp only [goodFrame, if_pos still]

theorem goodFrame_kept (d : Desk) (f : Frame) (s : State) (empty : s.links[d].kept = none)
    (full : Config.queueSize ≤ s.links[d].queue.length) :
    goodFrame d f s = (restartSilence d s).modLink d fun l => { l with kept := some f } := by
  have still : (restartSilence d s).links[d].kept = none := by simpa [restartSilence] using empty
  have still : ¬ (restartSilence d s).links[d].kept.isSome = true := by rw [still]; exact Bool.false_ne_true
  have full : Config.queueSize ≤ (restartSilence d s).links[d].queue.length := by simpa [restartSilence] using full
  simp only [goodFrame, if_neg still, if_pos full]

theorem takeKept_eq (d : Desk) (f : Frame) (s : State) (kept : s.links[d].kept = some f)
    (room : s.links[d].queue.length < Config.queueSize) :
    takeKept d s = takeRequest d f (s.modLink d fun l => { l with kept := none }) := by
  simp only [takeKept, kept, if_pos room]

/-- Settles O3: a good frame is kept or dropped by the link as it stands, and the kept one is taken as any request. -/
theorem framesKeptAndDropped : Obligations.FramesKeptAndDropped := by
  refine ⟨?kept, ?dropped, ?taken⟩
  case kept =>
    intro d t p s fits listens empty full
    rw [exec_frame _ d ⟨t, p⟩ s rfl, receiveFrame_eq d t p s listens fits, goodFrame_kept d _ s empty full, restartSilence,
      State.modLink_modLink]
  case dropped =>
    intro d t p s fits listens keeps
    rw [exec_frame _ d ⟨t, p⟩ s rfl, receiveFrame_eq d t p s listens fits, goodFrame_dropped d _ s keeps, restartSilence,
      countBad_eq, State.modLink_modLink]
  case taken =>
    intro d f s kept room taken
    rw [exec_keptRequestTaken, takeKept_eq d f s kept room]
    refine ⟨fun allowed => ?_, fun unknown => ?_, fun known denied => ?_⟩
    · exact congrArg _ (takeRequest_allowed d f taken allowed)
    · exact congrArg _ (takeRequest_unknown d f taken unknown)
    · refine congrArg _ (takeRequest_denied d f taken known ?_)
      have above : ¬ s.settings.deskLevel[d] ≤ levelNeeded f.type.toNat := fun below =>
        denied ((allowed_iff d f.type s).2 ⟨known, below⟩)
      exact Nat.lt_of_not_le above

/-! ## Bad frames (R21) -/

/-- A length byte of 0 or above 72 makes a bad frame (R21). -/
theorem receiveBytes_badLength (d : Desk) (n : Byte) (s : State) (listens : Listening d s)
    (outside : n.toNat = 0 ∨ 72 < n.toNat) : receiveBytes d [0xA5, n] s = countBad d s := by
  have lead : receiveByte d s 0xA5 = setReceiver d .length s := by
    simp only [receiveByte, listens.1, listens.2, Bool.false_eq_true, if_false, if_true]
  have bad : ¬ (1 ≤ n.toNat ∧ n.toNat ≤ 72) := by omega
  show receiveByte d (receiveByte d s 0xA5) n = countBad d s
  rw [lead]
  simp only [receiveByte, setReceiver_spacing, listens.2, setReceiver_rx, Bool.false_eq_true, if_false, if_neg bad,
    setReceiver_setReceiver, setReceiver_same d .hunt s listens.1]

/-- Settles O4: the length byte or the sum tells a bad frame, and the receiver is back in HUNT. -/
theorem badFramesCounted : Obligations.BadFramesCounted := by
  intro d s listens counted
  refine ⟨fun n outside => ?_, fun n body low high length sum => ?_, fun b notLead => ?_⟩
  · rw [exec_badFrame, receiveBytes_badLength d n s listens outside]
    rfl
  · obtain ⟨front, last, rfl⟩ := List.eq_nil_or_concat body |>.resolve_left (by rintro rfl; simp at length)
    have front_length : front.length = n.toNat := by simpa using length
    have spelt : byteOf n.toNat = n := BitVec.eq_of_toNat_eq (byteOf_toNat _ n.isLt)
    have whole := receive_whole d n.toNat front last s listens low high front_length
    rw [spelt] at whole
    rw [foldl_add, List.concat_eq_append] at sum
    rw [exec_badFrame, List.concat_eq_append, whole, frameComplete_bad d n.toNat _ s listens (by rwa [spelt])]
    rfl
  · show Host.Outcome.next (receiveByte d s b) = _
    simp only [receiveByte, listens.1, listens.2, Bool.false_eq_true, if_false, if_neg notLead]

/-! ## Frames out (R24) -/

theorem kick_busy (l : Link) (busy : l.sending.isSome = true) : l.kick = l := by
  rcases l.kick_cases with ⟨-, e⟩ | ⟨_, free, -⟩ | ⟨_, _, free, -⟩
  · exact e
  · simp [free] at busy
  · simp [free] at busy

theorem kick_slot (l : Link) (f : FlowFrame) (free : l.sending = none) (slot : l.slot = some f) :
    l.kick = { l with slot := none, sending := some f.frame.bytes } := by
  simp only [Link.kick, free, slot]

theorem kick_queue (l : Link) (f : Frame) (rest : List Frame) (free : l.sending = none) (slot : l.slot = none)
    (queue : l.queue = f :: rest) : l.kick = { l with queue := rest, sending := some f.bytes } := by
  simp only [Link.kick, free, slot, queue]

theorem kick_idle (l : Link) (free : l.sending = none) (slot : l.slot = none) (queue : l.queue = []) : l.kick = l := by
  simp only [Link.kick, free, slot, queue]

/-- The bytes of a frame after the lead sum to 0. -/
theorem envelope_sum (type : Byte) (payload : List Byte) : sumBytes ((envelope type payload).drop 1) = 0 := by
  have split : (envelope type payload).drop 1 =
      [byteOf (payload.length + 1)] ++ ((type :: payload) ++ [checkByte type payload]) := by simp [envelope]
  rw [split, sumBytes_append, sumBytes_append, ← BitVec.add_assoc]
  simp [checkByte, sumBytes]

theorem nat2_lt (hi lo : Byte) : nat2 hi lo < 65536 := by
  have := hi.isLt
  have := lo.isLt
  unfold nat2
  omega

theorem toNat_byteOf (n : Nat) : (byteOf n).toNat = n % 256 := by simp [byteOf]

/-- A signed number of two bytes reads back. -/
theorem int2_be2Int (i : Int) (low : -32768 ≤ i) (high : i ≤ 32767) :
    ∃ hi lo : Byte, be2Int i = [hi, lo] ∧ int2 hi lo = i := by
  refine ⟨_, _, rfl, ?_⟩
  unfold int2 nat2
  rw [toNat_byteOf, toNat_byteOf]
  split <;> omega

theorem replyFrame_eq (type : Byte) (data : List Byte) (c : ReplyCode) (code : Byte) (is : byteOf c.code = code) :
    replyFrame type c data = ⟨0x80, [type, code] ++ data⟩ := by
  rw [← is]
  rfl

theorem put_entry {α : Type} {n : Nat} (v : Vector α n) (i k : Fin n) (a : α) :
    (put v i a)[k] = if k = i then a else v[k] := by
  by_cases same : k = i
  · rw [if_pos same, same, put_same]
  · rw [if_neg same, put_other _ _ _ _ (Ne.symm same)]

/-- Settles O5: the transmitter begins what stands first, and a frame is its envelope. -/
theorem frameSentBeginsNext : Obligations.FrameSentBeginsNext := by
  refine ⟨?sent, ?envelope, ?enqueue, ?reply, ?link, ?entry, ?numbers, fun i => int2_be2Int i⟩
  case sent =>
    intro d s sending
    have eq : frameSent d s = s.modLink d Link.sent := if_pos sending
    simp only [exec_frameSent, eq]
    refine ⟨fun t slot => ?_, fun slot => ?_, fun f r slot queue => ?_, fun slot queue => ?_⟩
    all_goals refine congrArg _ (modLink_congr ?_)
    · exact kick_slot { s.links[d] with sending := none } _ rfl slot
    · exact kick_slot { s.links[d] with sending := none } _ rfl slot
    · exact kick_queue { s.links[d] with sending := none } f r rfl slot queue
    · exact kick_idle { s.links[d] with sending := none } rfl slot queue
  case envelope =>
    intro type payload
    exact ⟨checkByte type payload, rfl, envelope_sum type payload⟩
  case enqueue =>
    intro l f queue
    refine ⟨fun busy => kick_busy _ busy, fun free => ⟨fun t slot => kick_slot { l with queue := queue } _ free slot,
      fun slot => kick_slot { l with queue := queue } _ free slot, fun slot empty => ?_, fun head rest slot queued => ?_⟩⟩
    · have begun : l.enqueue f = { l with queue := [], sending := some f.bytes } :=
        kick_queue { l with queue := l.queue ++ [f] } f [] free slot (by simp [empty])
      rw [begun, ← empty]
      rfl
    · exact kick_queue { l with queue := l.queue ++ [f] } head (rest ++ [f]) free slot (by simp [queued])
  case reply =>
    intro d type data s c code coded
    have spelt : byteOf c.code = code := by
      simp only [List.mem_cons, Prod.mk.injEq, List.not_mem_nil, or_false] at coded
      rcases coded with h | h | h | h | h | h | h | h | h | h | h | h <;> rw [h.1, h.2] <;> rfl
    exact ⟨replyFrame_eq type data c code spelt, by rw [State.reply, replyFrame_eq type data c code spelt]⟩
  case link =>
    intro d change s t
    exact ⟨rfl, put_same _ _ _, fun e other => put_other _ _ _ _ (Ne.symm other)⟩
  case entry =>
    intro α n v i k a
    exact put_entry v i k a
  case numbers =>
    intro n hi lo spelt
    have nat : nat2 hi lo = spelt := by simp only [nat2, spelt, Nat.mul_comm]
    refine ⟨toNat_byteOf n, rfl, rfl, nat, ?_, by rw [int2, nat]⟩
    rw [← nat, word2, BitVec.toNat_ofNat]
    exact Nat.mod_eq_of_lt (nat2_lt hi lo)

/-! ## The timers and the flow-control decisions (R31, R32, R34, R50) -/

/-- A flow-control frame waits in the slot of a busy transmitter, and is begun by a free one. -/
theorem place_eq (f : FlowFrame) (l : Link) :
    l.place f = if l.sending.isSome then { l with slot := some f }
      else { l with slot := none, sending := some f.frame.bytes } := by
  by_cases busy : l.sending.isSome = true
  · rw [if_pos busy]
    exact kick_busy { l with slot := some f } busy
  · rw [if_neg busy]
    exact kick_slot { l with slot := some f } f (by simpa using busy) rfl

theorem silenceExpired_eq (d : Desk) (s : State) (running : s.links[d].silenceTimer.isSome = true) :
    silenceExpired d s = abandonReceiving d .silence (stopSilence d s) := by
  rw [silenceExpired, if_neg (by simpa [Option.isNone_iff_eq_none, Option.isSome_iff_ne_none] using running)]

/-- Settles O6: each expiry and each decision changes its link by the placing of one frame at most. -/
theorem linkTimersExpire : Obligations.LinkTimersExpire := by
  refine ⟨fun d s running => ?hold, ?silence, ?decisions⟩
  case hold =>
    have runs : ¬ s.links[d].holdTimer.isNone = true := by
      simpa [Option.isNone_iff_eq_none, Option.isSome_iff_ne_none] using running
    rw [exec_holdTimerExpiry, holdExpired, if_neg runs]
    by_cases low : s.store.freeCount < s.settings.high
    · simp only [if_pos low, place_eq]
      rfl
    · simp only [if_neg low]
  case silence =>
    intro d s running stopped
    simp only [exec_silenceTimerExpiry, silenceExpired_eq d s running]
    refine ⟨fun j receiving => ?_, fun idle => ?_⟩
    · exact congrArg _ (abandonReceiving_of_receiving d j .silence _ ((receiving_modLink d d j _ s).2 receiving))
    · exact congrArg _ (abandonReceiving_of_notReceiving d .silence _ ((notReceiving_modLink d d _ s).2 idle))
  case decisions =>
    intro d s l time placed
    have held : s.decideHold.links[d] = l.takeHold time := State.modLinks_get _ _ _ _
    have resumed : s.decideResume.links[d] = l.takeResume := State.modLinks_get _ _ _ _
    refine ⟨rfl, rfl, fun out => ?_, fun inHold => ?_, fun inHold => ?_, fun out => ?_⟩
    · rw [held, Link.takeHold, if_neg (by simp [out]), place_eq]
      rfl
    · rw [held, Link.takeHold, if_pos inHold]
    · rw [resumed, Link.takeResume, if_pos inHold, place_eq]
      rfl
    · rw [resumed, Link.takeResume, if_neg (by simp [out])]

/-! ## Abandonment (R41, R45) -/

@[simp] theorem setNext_freeList (b : Nat) (n : Option Nat) (st : Store) : (st.setNext b n).freeList = st.freeList := rfl

theorem joinFree_freeList (st : Store) (b : Nat) : (st.joinFree b).freeList = st.freeList ++ [b] := by
  unfold Store.joinFree
  cases st.freeTail <;> simp [Store.freeList, Store.setNext]

theorem joinFree_cells (st : Store) (b : Nat) : (st.joinFree b).cells = st.cells := by
  unfold Store.joinFree
  cases st.freeTail <;> rfl

theorem freeCount_eq (st : Store) : st.freeCount = st.freeList.length := by
  simp [Store.freeCount, Store.freeList]

theorem freeBlocks_freeList (blocks : List Nat) (st : Store) : (st.freeBlocks blocks).freeList = st.freeList ++ blocks := by
  induction blocks generalizing st with
  | nil => simp [Store.freeBlocks]
  | cons b rest ih =>
    calc ((st.joinFree b).freeBlocks rest).freeList
      _ = st.freeList ++ [b] ++ rest := by rw [ih, joinFree_freeList]
      _ = st.freeList ++ b :: rest := by simp

theorem freeBlocks_cells (blocks : List Nat) (st : Store) : (st.freeBlocks blocks).cells = st.cells := by
  induction blocks generalizing st with
  | nil => rfl
  | cons b rest ih => exact (ih (st.joinFree b)).trans (joinFree_cells st b)

/-- Settles O7: abandonment is the freeing of the record, the change of the link and the decision that follows. -/
theorem abandonmentFreesJob : Obligations.AbandonmentFreesJob := by
  refine ⟨?_, fun st blocks => ⟨freeBlocks_freeList blocks st, freeBlocks_cells blocks st, freeCount_eq st⟩⟩
  intro d j why s freed
  have noticed : (if why = .cancel then (freeJob j s).modLink d fun l => { l with silenceTimer := none }
      else ((freeJob j s).modLink d fun l => { l with silenceTimer := none }).notice d .jobAbandoned j why.code) =
      freed := by
    by_cases cancel : why = .cancel
    · simp only [if_pos cancel, freed]
      rfl
    · simp only [if_neg cancel, freed, State.notice, State.modLink_modLink]
      rfl
  rw [abandon]
  rw [noticed, flowIfFreed, flowAfterFreeing]
  by_cases rose : s.store.freeCount < freed.store.freeCount
  · simp only [rose, true_and]
    rfl
  · simp only [rose, false_and, if_false]

end Sys2Proof.Proofs

/-! PROOFS. The galley store (03): the chains of the jobs and the free list as lists of blocks, what an appended byte and a
freed chain do to them (O10, O12, O13), and that every step keeps the store sound (O58). -/

namespace Sys2Proof.Proofs

open Sys2Proof.Machine

/-! ## Linked lists of blocks (R40, R41) -/

theorem linked_tail {st : Store} {b : Nat} {rest : List Nat} (h : linked st (b :: rest)) : linked st rest := by
  cases rest with
  | nil => trivial
  | cons c rest => exact h.2

/-- The links of the listed blocks alone say that a list is linked. -/
theorem linked_congr {st t : Store} {l : List Nat} (same : ∀ b ∈ l, t.next b = st.next b) (h : linked st l) :
    linked t l := by
  induction l with
  | nil => trivial
  | cons b rest ih =>
    have tail : linked t rest := ih (fun c hc => same c (List.mem_cons_of_mem b hc)) (linked_tail h)
    cases rest with
    | nil => exact (same b (by simp)).trans h
    | cons c rest => exact ⟨(same b (by simp)).trans h.1, tail⟩

/-- A block linked from the last of a list lengthens it. -/
theorem linked_concat {st t : Store} {l : List Nat} {b : Nat} (h : linked st l) (nodup : l.Nodup)
    (tail : ∀ a, l.getLast? = some a → t.next a = some b) (last : t.next b = none)
    (same : ∀ a ∈ l, l.getLast? ≠ some a → t.next a = st.next a) : linked t (l ++ [b]) := by
  induction l with
  | nil => exact last
  | cons a rest ih =>
    obtain ⟨absent, nodup⟩ := List.nodup_cons.1 nodup
    cases rest with
    | nil => exact ⟨tail a rfl, last⟩
    | cons c rest =>
      have inner : (c :: rest).getLast? ≠ some a := fun e => absent (List.mem_of_getLast? e)
      refine ⟨?_, ih (linked_tail h) nodup (fun x hx => tail x ?_) fun x hx notLast => same x (by simp [hx]) ?_⟩
      · rw [same a (by simp) (by rwa [List.getLast?_cons_cons])]
        exact h.1
      · rwa [List.getLast?_cons_cons]
      · rwa [List.getLast?_cons_cons]

theorem linked_next {st : Store} {l : List Nat} (h : linked st l) (i b c : Nat) (at_ : l[i]? = some b)
    (after : l[i + 1]? = some c) : st.next b = some c := by
  induction l generalizing i with
  | nil => simp at at_
  | cons a rest ih =>
    cases i with
    | succ i => exact ih (linked_tail h) i (by simpa using at_) (by simpa using after)
    | zero =>
      cases rest with
      | nil => simp at after
      | cons d rest =>
        obtain rfl : a = b := by simpa using at_
        obtain rfl : d = c := by simpa using after
        exact h.1

/-- A walk along the next-links meets the blocks of the list they link. -/
theorem walk_eq {st : Store} {chain : List Nat}
    (links : ∀ i b c, chain[i]? = some b → chain[i + 1]? = some c → st.next b = some c) :
    st.walk chain.length chain.head? = chain := by
  induction chain with
  | nil => rfl
  | cons b rest ih =>
    have further : st.walk rest.length rest.head? = rest := ih fun i => links (i + 1)
    cases rest with
    | nil => simp [Store.walk]
    | cons c rest =>
      have next : st.next b = some c := links 0 b c rfl rfl
      calc st.walk (c :: rest).length.succ (some b)
        _ = b :: st.walk (c :: rest).length (st.next b) := rfl
        _ = b :: c :: rest := by rw [next]; exact congrArg _ further

/-! ## The chain of a job -/

/-- A list of blocks is the chain that a job's record names. -/
structure Chained (st : Store) (r : Job) (chain : List Nat) : Prop where
  length : chain.length = blocksFor r.bytes
  first : r.firstBlock = chain.head?
  last : r.lastBlock = chain.getLast?
  links : linked st chain

theorem Chained.chainOf_eq {st : Store} {r : Job} {chain : List Nat} (h : Chained st r chain) : chainOf st r = chain := by
  rw [chainOf, ← h.length, h.first]
  exact walk_eq (linked_next h.links)

theorem Chained.congr {st t : Store} {r : Job} {chain : List Nat} (same : ∀ b ∈ chain, t.next b = st.next b)
    (h : Chained st r chain) : Chained t r chain := { h with links := linked_congr same h.links }

theorem chained_empty (st : Store) {r : Job} (first : r.firstBlock = none) (last : r.lastBlock = none)
    (bytes : r.bytes = 0) : Chained st r [] := ⟨by rw [bytes]; rfl, first, last, trivial⟩

theorem blocksFor_eq (bytes : Nat) : blocksFor bytes = (bytes + 31) / 32 := rfl

/-! ## The whole store -/

/-- The free list and the chains hold every block once, and each is linked. -/
structure Galley (st : Store) (jobs : Vector Job 32) (chains : JobId → List Nat) : Prop where
  blocks : (st.freeList ++ allJobs.flatMap chains).Perm (List.range Config.blocks)
  free : linked st st.freeList
  chain : ∀ j : JobId, Chained st jobs[j] (chains j)
  most : ∀ j : JobId, jobs[j].bytes ≤ Config.maxText
  idle : ∀ j : JobId, jobs[j].state = .free → jobs[j].bytes = 0
  wf : sparseWf startLink st.links = true

theorem galleySound_iff (s : State) : GalleySound s ↔ ∃ chains, Galley s.store s.jobs chains := by
  constructor
  · rintro ⟨blocks, free, sound, idle, wf⟩
    refine ⟨fun j => chainOf s.store s.jobs[j], blocks, free, fun j => ?_, fun j => (sound j).1, idle, wf⟩
    obtain ⟨-, length, first, last, links⟩ := sound j
    exact ⟨length, first, last, links⟩
  · rintro ⟨chains, h⟩
    have named : (fun j : JobId => chainOf s.store s.jobs[j]) = chains := funext fun j => (h.chain j).chainOf_eq
    refine ⟨by rw [named]; exact h.blocks, h.free, fun j => ?_, h.idle, h.wf⟩
    obtain ⟨length, first, last, links⟩ := h.chain j
    simp only [ChainSound, (h.chain j).chainOf_eq]
    exact ⟨h.most j, length, first, last, links⟩

/-- The chains of all jobs, one of them set apart. -/
theorem flatMap_update (chains : JobId → List Nat) (j : JobId) (chain : List Nat) :
    (allJobs.flatMap (Function.update chains j chain)).Perm (chain ++ (allJobs.erase j).flatMap chains) := by
  have member : j ∈ allJobs := List.mem_finRange j
  have nodup : allJobs.Nodup := List.nodup_finRange 32
  have others : (allJobs.erase j).flatMap (Function.update chains j chain) = (allJobs.erase j).flatMap chains :=
    List.flatMap_congr fun k hk => Function.update_of_ne (fun e => nodup.not_mem_erase (e ▸ hk)) _ _
  have apart := (List.perm_cons_erase member).flatMap_right (Function.update chains j chain)
  rwa [List.flatMap_cons, Function.update_self, others] at apart

theorem flatMap_apart (chains : JobId → List Nat) (j : JobId) :
    (allJobs.flatMap chains).Perm (chains j ++ (allJobs.erase j).flatMap chains) := by
  simpa using flatMap_update chains j (chains j)

namespace Galley

variable {st : Store} {jobs : Vector Job 32} {chains : JobId → List Nat} (h : Galley st jobs chains)
include h

theorem nodup : (st.freeList ++ allJobs.flatMap chains).Nodup := h.blocks.nodup_iff.2 List.nodup_range

theorem freeList_nodup : st.freeList.Nodup := (List.nodup_append.1 h.nodup).1

theorem free_apart {b : Nat} (free : b ∈ st.freeList) (j : JobId) : b ∉ chains j := fun chained =>
  (List.nodup_append.1 h.nodup).2.2 b free b (List.mem_flatMap.2 ⟨j, List.mem_finRange j, chained⟩) rfl

theorem apart_nodup (j : JobId) : (chains j ++ (allJobs.erase j).flatMap chains).Nodup :=
  (flatMap_apart chains j).nodup_iff.1 (List.nodup_append.1 h.nodup).2.1

theorem chain_nodup (j : JobId) : (chains j).Nodup := (List.nodup_append.1 (h.apart_nodup j)).1

theorem chains_apart {j k : JobId} (other : k ≠ j) {b : Nat} (chained : b ∈ chains j) : b ∉ chains k := fun also =>
  (List.nodup_append.1 (h.apart_nodup j)).2.2 b chained b
    (List.mem_flatMap.2 ⟨k, (List.mem_erase_of_ne other).2 (List.mem_finRange k), also⟩) rfl

end Galley

/-! ## A byte appended (R44) -/

/-- The head of the free list is taken. -/
theorem allocate_of_freeList {st : Store} {head : Nat} {rest : List Nat} (free : st.freeList = head :: rest) :
    ∃ t : Store, st.allocate = some (head, t) ∧ t.freeList = rest ∧ t.links = st.links ∧ t.cells = st.cells := by
  by_cases fresh : st.fresh < Config.blocks
  · refine ⟨{ st with fresh := st.fresh + 1 }, ?_, ?_, rfl, rfl⟩
    all_goals
      obtain ⟨n, left⟩ : ∃ n, Config.blocks - st.fresh = n + 1 := ⟨Config.blocks - st.fresh - 1, by omega⟩
      rw [Store.freeList, left, List.range'_succ, List.cons_append, List.cons_eq_cons] at free
    · rw [Store.allocate, if_pos fresh, free.1]
    · have less : Config.blocks - (st.fresh + 1) = n := by omega
      rw [← free.2, Store.freeList, less]
  · have left : Config.blocks - st.fresh = 0 := by omega
    rw [Store.freeList, left, List.range'_zero, List.nil_append] at free
    refine ⟨{ st with returned := rest }, by simp only [Store.allocate, if_neg fresh, free], ?_, rfl, rfl⟩
    rw [Store.freeList, left]
    rfl

/-- A byte goes into the room of the last block. -/
theorem appendByte_room (st : Store) (r : Job) (b : Byte) (last : Nat) (room : r.bytes % 32 ≠ 0)
    (named : r.lastBlock = some last) :
    appendByte (st, r) b =
      ({ st with cells := Memory.write st.cells (32 * last + r.bytes % 32) b }, { r with bytes := r.bytes + 1 }) := by
  have place : ¬ r.bytes % Config.blockBytes = 0 := room
  simp only [appendByte, if_neg place, named]
  rfl

/-- The store after a byte that takes a block. -/
theorem appendByte_block (st : Store) (r : Job) (b : Byte) (head : Nat) (rest : List Nat) (full : r.bytes % 32 = 0)
    (free : st.freeList = head :: rest) (wf : sparseWf startLink st.links = true) (other : r.lastBlock ≠ some head) :
    let t := appendByte (st, r) b
    t.2 = { r with firstBlock := some (r.firstBlock.getD head), lastBlock := some head, bytes := r.bytes + 1 } ∧
    t.1.freeList = rest ∧ t.1.cells = Memory.write st.cells (32 * head) b ∧
    (∀ k, t.1.next k = if k = head then none else if r.lastBlock = some k then some head else st.next k) ∧
    sparseWf startLink t.1.links = true := by
  obtain ⟨u, taken, freeList, links, cells⟩ := allocate_of_freeList free
  have place : r.bytes % Config.blockBytes = 0 := full
  have wf : sparseWf startLink u.links = true := by rwa [links]
  have wfEnd := Store.setNext_wf head none u wf
  have unread (k : Nat) : u.next k = st.next k := by rw [Store.next, Store.next, links]
  have first : (r.firstBlock.orElse fun _ => some head) = some (r.firstBlock.getD head) := by
    cases r.firstBlock <;> rfl
  have ended (k : Nat) : (u.setNext head none).next k = if k = head then none else st.next k := by
    by_cases same : k = head
    · rw [if_pos same, same, Store.next_setNext_same _ _ _ wf]
    · rw [if_neg same, Store.next_setNext_other _ _ _ _ wf same, unread]
  simp only [appendByte, if_pos place, taken, first]
  cases named : r.lastBlock with
  | none =>
    exact ⟨trivial, freeList, congrArg (Memory.write · (32 * head) b) cells, fun k => (ended k).trans (by simp), wfEnd⟩
  | some last =>
    have apart : last ≠ head := fun e => other (by rw [named, e])
    refine ⟨trivial, freeList, congrArg (Memory.write · (32 * head) b) cells, fun k => ?_,
      Store.setNext_wf _ _ _ wfEnd⟩
    have linked : (((u.setNext head none).setNext last (some head)).next k) =
        if k = last then some head else if k = head then none else st.next k := by
      by_cases same : k = last
      · rw [if_pos same, same, Store.next_setNext_same _ _ _ wfEnd]
      · rw [if_neg same, Store.next_setNext_other _ _ _ _ wfEnd same, ended]
    refine Eq.trans linked ?_
    by_cases atLast : k = last
    · subst atLast
      simp [apart]
    · have : ¬ some last = some k := fun e => atLast (Option.some.inj e).symm
      simp [atLast, this]

/-! ## The store after a change of one job's chain -/

/-- One job's record and chain change, the free list with them; every other chain stands. -/
theorem Galley.change {st t : Store} {jobs : Vector Job 32} {chains : JobId → List Nat} (h : Galley st jobs chains)
    (j : JobId) (r : Job) (chain : List Nat)
    (blocks : (t.freeList ++ chain).Perm (st.freeList ++ chains j)) (free : linked t t.freeList)
    (chained : Chained t r chain) (most : r.bytes ≤ Config.maxText) (idle : r.state = .free → r.bytes = 0)
    (wf : sparseWf startLink t.links = true) (others : ∀ k, k ≠ j → ∀ b ∈ chains k, t.next b = st.next b) :
    Galley t (put jobs j r) (Function.update chains j chain) where
  blocks := by
    have apart := (flatMap_update chains j chain).append_left t.freeList
    have moved := blocks.append_right ((allJobs.erase j).flatMap chains)
    have back := ((flatMap_apart chains j).append_left st.freeList).symm
    rw [← List.append_assoc] at apart back
    exact ((apart.trans moved).trans back).trans h.blocks
  free := free
  chain k := by
    by_cases same : k = j
    · rw [same, put_entry, if_pos rfl, Function.update_self]
      exact chained
    · rw [put_other _ _ _ _ (Ne.symm same), Function.update_of_ne same]
      exact (h.chain k).congr (others k same)
  most k := by
    rw [put_entry]
    split
    · exact most
    · exact h.most k
  idle k := by
    rw [put_entry]
    split
    · exact idle
    · exact h.idle k
  wf := wf

/-- Where an appended byte goes: place `place` of block `last`, the last of the job's chain, whose other blocks are full;
for place 0 the block is new. -/
structure Appended (st : Store) (jobs : Vector Job 32) (chains : JobId → List Nat) (j : JobId) (b : Byte)
    (t : Store × Job) (front : List Nat) (last place : Nat) : Prop where
  galley : Galley t.1 (put jobs j t.2) (Function.update chains j (front ++ [last]))
  cells : t.1.cells = Memory.write st.cells (32 * last + place) b
  inBlock : place < 32
  bytes : jobs[j].bytes = 32 * front.length + place
  more : t.2.bytes = jobs[j].bytes + 1
  state : t.2.state = jobs[j].state
  before : chains j = if place = 0 then front else front ++ [last]
  free : t.1.freeCount + (if place = 0 then 1 else 0) = st.freeCount

theorem Galley.appendByte {st : Store} {jobs : Vector Job 32} {chains : JobId → List Nat} (h : Galley st jobs chains)
    (j : JobId) (b : Byte) (used : jobs[j].state ≠ .free) (most : jobs[j].bytes < Config.maxText)
    (room : jobs[j].bytes % 32 = 0 → 0 < st.freeCount) :
    ∃ front last place, Appended st jobs chains j b (appendByte (st, jobs[j]) b) front last place := by
  obtain ⟨length, first, named, links⟩ := h.chain j
  rw [blocksFor_eq] at length
  by_cases full : jobs[j].bytes % 32 = 0
  · obtain ⟨head, rest, freeList⟩ := List.exists_cons_of_length_pos (by rw [← freeCount_eq]; exact room full)
    have headFree : head ∈ st.freeList := by simp [freeList]
    have notOwn : jobs[j].lastBlock ≠ some head := fun e =>
      h.free_apart headFree j (List.mem_of_getLast? (named.symm.trans e))
    obtain ⟨record, left, cells, next, wf⟩ := appendByte_block st jobs[j] b head rest full freeList h.wf notOwn
    have stands (k : Nat) (notHead : k ≠ head) (notLast : jobs[j].lastBlock ≠ some k) :
        (Machine.appendByte (st, jobs[j]) b).1.next k = st.next k := by rw [next, if_neg notHead, if_neg notLast]
    have freeNodup := h.freeList_nodup
    rw [freeList, List.nodup_cons] at freeNodup
    have chained : Chained (Machine.appendByte (st, jobs[j]) b).1 (Machine.appendByte (st, jobs[j]) b).2
        (chains j ++ [head]) := by
      rw [record]
      refine ⟨?_, ?_, by simp, linked_concat links (h.chain_nodup j) (fun a atEnd => ?_) ?_ fun a inChain notEnd => ?_⟩
      · simp only [List.length_append, List.length_singleton, length, blocksFor_eq]
        omega
      · rw [first]
        cases chains j <;> rfl
      · have apart : a ≠ head := fun e => h.free_apart headFree j (e ▸ List.mem_of_getLast? atEnd)
        rw [next, if_neg apart, if_pos (named.trans atEnd)]
      · rw [next, if_pos rfl]
      · exact stands a (fun e => h.free_apart headFree j (e ▸ inChain)) (named ▸ notEnd)
    refine ⟨chains j, head, 0, ?_, cells, by omega, by omega, by rw [record], by rw [record], by simp, ?_⟩
    · refine h.change j _ _ ?_ ?_ chained ?_ ?_ wf fun k other c chainedThere => stands c ?_ fun e => ?_
      · rw [left, freeList, ← List.append_assoc]
        exact List.perm_append_singleton head (rest ++ chains j)
      · rw [left]
        refine linked_congr (fun c hc => stands c (fun e => freeNodup.1 (e ▸ hc)) fun e => ?_)
          (linked_tail (freeList ▸ h.free))
        exact h.free_apart (by simp [freeList, hc]) j (List.mem_of_getLast? (named.symm.trans e))
      · rw [record]
        exact most
      · rw [record]
        exact fun free => absurd free used
      · exact fun e => h.free_apart headFree k (e ▸ chainedThere)
      · exact h.chains_apart other (List.mem_of_getLast? (named.symm.trans e)) chainedThere
    · rw [freeCount_eq, freeCount_eq, left, freeList]
      rfl
  · obtain ⟨front, last, split⟩ := List.eq_nil_or_concat (chains j) |>.resolve_left fun e => by
      rw [e, List.length_nil] at length
      omega
    rw [List.concat_eq_append] at split
    rw [split] at length named
    simp only [List.length_append, List.length_singleton] at length
    have named : jobs[j].lastBlock = some last := by simpa using named
    rw [appendByte_room st jobs[j] b last full named]
    refine ⟨front, last, jobs[j].bytes % 32, ?_, rfl, by omega, by omega, rfl, rfl, by rw [if_neg full, split], ?_⟩
    · rw [← split]
      refine h.change j _ _ (List.Perm.refl _) (linked_congr (st := st) (fun _ _ => rfl) h.free)
        ⟨?_, first, (h.chain j).last, linked_congr (st := st) (fun _ _ => rfl) links⟩ most (fun free => absurd free used) h.wf fun _ _ _ _ => rfl
      simp only [split, List.length_append, List.length_singleton, length, blocksFor_eq]
      omega
    · rw [if_neg full]
      rfl

/-! ## The text of a chain (R40, R42) -/

theorem blockText_length (st : Store) (k : Nat) : (st.blockText k).length = 32 := by simp [Store.blockText, Config.blockBytes]

theorem flatMap_blockText_length (st : Store) (blocks : List Nat) :
    (blocks.flatMap st.blockText).length = 32 * blocks.length := by
  induction blocks with
  | nil => rfl
  | cons b rest ih =>
    rw [List.flatMap_cons, List.length_append, ih, blockText_length, List.length_cons]
    omega

/-- A job's text is that of its full blocks, and of the last one up to its place. -/
theorem storedText_split {st : Store} {r : Job} {chain front : List Nat} {last place : Nat} (chained : Chained st r chain)
    (split : chain = if place = 0 then front else front ++ [last]) (bytes : r.bytes = 32 * front.length + place) :
    storedText st r = front.flatMap st.blockText ++ (st.blockText last).take place := by
  have whole := flatMap_blockText_length st front
  rw [storedText, chained.chainOf_eq, bytes, split, ← whole]
  by_cases new : place = 0
  · rw [if_pos new, new, List.take_zero, List.append_nil]
    exact List.take_length
  · rw [if_neg new, List.flatMap_append, List.flatMap_singleton, List.take_length_add_append]

theorem blockText_congr {st t : Store} {k : Nat}
    (same : ∀ i, i < 32 → Memory.read t.cells (32 * k + i) = Memory.read st.cells (32 * k + i)) :
    t.blockText k = st.blockText k :=
  List.map_congr_left fun i hi => same i (List.mem_range.1 hi)

section

variable {st t : Store} {last place : Nat} {b : Byte} (cells : t.cells = Memory.write st.cells (32 * last + place) b)
  (inBlock : place < 32) (wf : Memory.wf st.cells = true)
include cells inBlock wf

omit inBlock in
theorem read_of_write (a : Nat) (other : a ≠ 32 * last + place) : Memory.read t.cells a = Memory.read st.cells a := by
  rw [cells, Memory.read_write_other _ _ _ _ wf other]

theorem blockText_write_other {k : Nat} (other : k ≠ last) : t.blockText k = st.blockText k :=
  blockText_congr fun i hi => read_of_write cells wf _ (by omega)

theorem flatMap_blockText_write {blocks : List Nat} (absent : last ∉ blocks) :
    blocks.flatMap t.blockText = blocks.flatMap st.blockText :=
  List.flatMap_congr fun _ hk => blockText_write_other cells inBlock wf fun e => absent (e ▸ hk)

theorem blockText_write_take : (t.blockText last).take (place + 1) = (st.blockText last).take place ++ [b] := by
  have upTo (u : Store) (n : Nat) (fits : n ≤ 32) :
      (u.blockText last).take n = (List.range n).map fun i => Memory.read u.cells (32 * last + i) := by
    rw [Store.blockText, ← List.map_take, List.take_range, Nat.min_eq_left (show n ≤ Config.blockBytes from fits)]
    rfl
  rw [upTo t _ inBlock, upTo st _ inBlock.le, List.range_succ, List.map_append, List.map_singleton]
  congr 1
  · exact List.map_congr_left fun i hi => read_of_write cells wf _ (by have := List.mem_range.1 hi; omega)
  · rw [cells, Memory.read_write_same _ _ _ wf]

end

/-- A job's text is read from its blocks alone. -/
theorem storedText_congr {st t : Store} {r : Job} {chain : List Nat} (before : Chained st r chain)
    (after : Chained t r chain) (same : chain.flatMap t.blockText = chain.flatMap st.blockText) :
    storedText t r = storedText st r := by
  rw [storedText, storedText, before.chainOf_eq, after.chainOf_eq, same]

/-- The job's text grows by the byte, and no other job's text changes. -/
theorem Appended.text {st : Store} {jobs : Vector Job 32} {chains : JobId → List Nat} {j : JobId} {b : Byte}
    {t : Store × Job} {front : List Nat} {last place : Nat} (h : Galley st jobs chains)
    (a : Appended st jobs chains j b t front last place) (wf : Memory.wf st.cells = true) :
    storedText t.1 t.2 = storedText st jobs[j] ++ [b] ∧
    ∀ k : JobId, k ≠ j → storedText t.1 jobs[k] = storedText st jobs[k] := by
  have chained : Chained t.1 t.2 (front ++ [last]) := by
    have := a.galley.chain j
    rwa [put_entry, if_pos rfl, Function.update_self] at this
  have inChain : last ∈ Function.update chains j (front ++ [last]) j := by simp
  have nodup : (front ++ [last]).Nodup := by simpa using a.galley.chain_nodup j
  have absent : last ∉ front := fun e => (List.nodup_append.1 nodup).2.2 last e last (by simp) rfl
  refine ⟨?_, fun k other => ?_⟩
  · rw [storedText_split (h.chain j) a.before a.bytes,
      storedText_split (front := front) (last := last) (place := place + 1) chained (by simp) (by rw [a.more, a.bytes]; rfl),
      flatMap_blockText_write a.cells a.inBlock wf absent, blockText_write_take a.cells a.inBlock wf, List.append_assoc]
  · have apart : last ∉ chains k := by
      have := a.galley.chains_apart other inChain
      rwa [Function.update_of_ne other] at this
    have after : Chained t.1 jobs[k] (chains k) := by
      have := a.galley.chain k
      rwa [put_other _ _ _ _ (Ne.symm other), Function.update_of_ne other] at this
    exact storedText_congr (h.chain k) after (flatMap_blockText_write a.cells a.inBlock wf apart)

/-- The bytes of a TEXT frame appended one after another. -/
theorem Galley.appendBytes (bytes : List Byte) {st : Store} {jobs : Vector Job 32} {chains : JobId → List Nat}
    (h : Galley st jobs chains) (j : JobId) (used : jobs[j].state ≠ .free)
    (most : jobs[j].bytes + bytes.length ≤ Config.maxText)
    (room : blocksNeeded jobs[j].bytes bytes.length ≤ st.freeCount) :
    let p := bytes.foldl Machine.appendByte (st, jobs[j])
    (∃ chains', Galley p.1 (put jobs j p.2) chains') ∧
    (Memory.wf st.cells = true → storedText p.1 p.2 = storedText st jobs[j] ++ bytes ∧
      ∀ k : JobId, k ≠ j → storedText p.1 jobs[k] = storedText st jobs[k]) := by
  induction bytes generalizing st jobs chains with
  | nil =>
    refine ⟨⟨chains, ?_⟩, fun _ => ⟨by simp, fun _ _ => rfl⟩⟩
    have unchanged : put jobs j jobs[j] = jobs := put_self jobs j
    rw [List.foldl_nil, unchanged]
    exact h
  | cons b rest ih =>
    rw [List.length_cons] at most room
    simp only [blocksNeeded, blocksFor_eq] at room
    obtain ⟨front, last, place, a⟩ := h.appendByte j b used (by omega) (by omega)
    have inBlock := a.inBlock
    have bytes := a.bytes
    have freeCount := a.free
    have text := a.text h
    have galley := a.galley
    have more := a.more
    have state := a.state
    have wfNext := appendByte_wf (st, jobs[j]) b
    rw [List.foldl_cons]
    generalize Machine.appendByte (st, jobs[j]) b = t at *
    obtain ⟨st1, r⟩ := t
    have record : (put jobs j r)[j] = r := put_same _ _ _
    have next := ih galley (by rwa [record, state]) (by rw [record, more]; omega) (by
      rw [record, more, blocksNeeded, blocksFor_eq, blocksFor_eq]
      split at freeCount <;> dsimp only at freeCount ⊢ <;> omega)
    simp only [record, put_put] at next
    obtain ⟨galley, further⟩ := next
    refine ⟨galley, fun wf => ?_⟩
    obtain ⟨own, others⟩ := further (wfNext wf)
    obtain ⟨ownFirst, othersFirst⟩ := text wf
    refine ⟨by rw [own, ownFirst, List.append_assoc]; rfl, fun k other => ?_⟩
    have left := others k other
    rw [put_other _ _ _ _ (Ne.symm other)] at left
    rw [left, othersFirst k other]

/-! ## A chain freed (R41, R46) -/

theorem freeTail_eq (st : Store) : st.freeTail = st.freeList.getLast? := by
  unfold Store.freeTail Store.freeList
  rw [List.getLast?_append]
  cases st.returned.getLast? with
  | some b => rfl
  | none =>
    rw [Option.none_or, List.getLast?_range']
    by_cases fresh : st.fresh < Config.blocks
    · rw [if_pos fresh, if_neg (by omega)]
      exact congrArg some (by omega)
    · rw [if_neg fresh, if_pos (by omega)]

/-- The next-links after a block joins the tail of the free list. -/
theorem joinFree_next (st : Store) (b : Nat) (wf : sparseWf startLink st.links = true) :
    (∀ k, (st.joinFree b).next k =
      if k = b then none else if st.freeList.getLast? = some k then some b else st.next k) ∧
    sparseWf startLink (st.joinFree b).links = true := by
  have ended (u : Store) (wf : sparseWf startLink u.links = true) (k : Nat) :
      (u.setNext b none).next k = if k = b then none else u.next k := by
    by_cases same : k = b
    · rw [if_pos same, same, Store.next_setNext_same _ _ _ wf]
    · rw [if_neg same, Store.next_setNext_other _ _ _ _ wf same]
  rw [← freeTail_eq]
  unfold Store.joinFree
  cases tail : st.freeTail with
  | none => exact ⟨fun k => (ended st wf k).trans (by simp), Store.setNext_wf _ _ _ wf⟩
  | some t =>
    refine ⟨fun k => (ended _ (Store.setNext_wf _ _ _ wf) k).trans ?_, Store.setNext_wf _ _ _ (Store.setNext_wf _ _ _ wf)⟩
    by_cases same : k = t
    · subst same
      rw [Store.next_setNext_same _ _ _ wf, if_pos rfl]
    · rw [Store.next_setNext_other _ _ _ _ wf same, if_neg fun e : some t = some k => same (Option.some.inj e).symm]

/-- Blocks freed lengthen the linked free list, and no other block's link changes. -/
theorem freeBlocks_linked (blocks : List Nat) (st : Store) (free : linked st st.freeList)
    (nodup : (st.freeList ++ blocks).Nodup) (wf : sparseWf startLink st.links = true) :
    linked (st.freeBlocks blocks) (st.freeBlocks blocks).freeList ∧
    sparseWf startLink (st.freeBlocks blocks).links = true ∧
    ∀ k, k ∉ st.freeList → k ∉ blocks → (st.freeBlocks blocks).next k = st.next k := by
  induction blocks generalizing st with
  | nil => exact ⟨free, wf, fun _ _ _ => rfl⟩
  | cons b rest ih =>
    obtain ⟨next, wfNext⟩ := joinFree_next st b wf
    have longer := joinFree_freeList st b
    have nodup' : ((st.joinFree b).freeList ++ rest).Nodup := by simpa [longer] using nodup
    obtain ⟨freeNodup, -, apart⟩ := List.nodup_append.1 nodup
    have absent : b ∉ st.freeList := fun e => apart b e b (by simp) rfl
    have joined : linked (st.joinFree b) (st.joinFree b).freeList := by
      rw [longer]
      refine linked_concat free freeNodup (fun a atEnd => ?_) (by rw [next, if_pos rfl]) fun a inList notEnd => ?_
      · rw [next, if_neg fun e : a = b => absent (e ▸ List.mem_of_getLast? atEnd), if_pos atEnd]
      · rw [next, if_neg fun e : a = b => absent (e ▸ inList), if_neg notEnd]
    obtain ⟨linkedEnd, wfEnd, stands⟩ := ih (st.joinFree b) joined nodup' wfNext
    refine ⟨linkedEnd, wfEnd, fun k notFree notFreed => ?_⟩
    obtain ⟨notB, notRest⟩ := not_or.1 fun e => notFreed (List.mem_cons.2 e)
    have unmoved : (st.joinFree b).next k = st.next k := by
      rw [next, if_neg notB, if_neg fun e => notFree (List.mem_of_getLast? e)]
    exact (stands k (by simp [longer, notFree, notB]) notRest).trans unmoved

/-- A record freed gives its chain to the free list. -/
theorem Galley.freeJob {s : State} {chains : JobId → List Nat} (h : Galley s.store s.jobs chains) (j : JobId) :
    Galley (freeJob j s).store (freeJob j s).jobs (Function.update chains j []) := by
  have nodup : (s.store.freeList ++ chains j).Nodup :=
    List.nodup_append.2 ⟨h.freeList_nodup, h.chain_nodup j, fun a free b chained e => h.free_apart free j (e ▸ chained)⟩
  obtain ⟨free, wf, stands⟩ := freeBlocks_linked (chains j) s.store h.free nodup h.wf
  have freed : (Machine.freeJob j s).store = s.store.freeBlocks (chains j) := by
    rw [← (h.chain j).chainOf_eq]
    rfl
  rw [freed, freeJob_jobs]
  refine h.change j Job.free [] ?_ free (chained_empty _ rfl rfl rfl) (Nat.zero_le _) (fun _ => rfl) wf
    fun k other b chained => stands b (fun e => h.free_apart e k chained) (h.chains_apart (Ne.symm other) chained)
  rw [freeBlocks_freeList, List.append_nil]

/-! ## Every step keeps the store sound -/

/-- The blocks from one on are linked at start-up. -/
theorem linked_start (n a : Nat) (toEnd : a + n = Config.blocks) : linked Store.start (List.range' a n) := by
  have next (b : Nat) : Store.start.next b = if b + 1 < Config.blocks then some (b + 1) else none := rfl
  induction n generalizing a with
  | zero => trivial
  | succ n ih =>
    cases n with
    | zero => exact (next a).trans (if_neg (by omega))
    | succ n => exact ⟨(next a).trans (if_pos (by omega)), ih (a + 1) (by omega)⟩

theorem galley_start : Galley Store.start (Vector.replicate 32 Job.free) fun _ => [] where
  blocks := by
    have free : Store.start.freeList = List.range Config.blocks := by
      rw [List.range_eq_range']
      exact List.append_nil _
    have none : allJobs.flatMap (fun _ : JobId => ([] : List Nat)) = [] := List.flatMap_eq_nil_iff.2 fun _ _ => rfl
    rw [free, none, List.append_nil]
  free := by
    have free : Store.start.freeList = List.range' 0 Config.blocks := List.append_nil _
    rw [free]
    exact linked_start Config.blocks 0 (Nat.zero_add _)
  chain j := by
    simp only [Fin.getElem_fin, Vector.getElem_replicate]
    exact chained_empty _ rfl rfl rfl
  most j := by
    simp only [Fin.getElem_fin, Vector.getElem_replicate]
    exact Nat.zero_le _
  idle j _ := by
    simp only [Fin.getElem_fin, Vector.getElem_replicate]
    rfl
  wf := rfl

theorem galleySound_lasting : Lasting GalleySound where
  other s t store jobs _ _ _ h := by
    obtain ⟨chains, g⟩ := (galleySound_iff s).1 h
    refine (galleySound_iff t).2 ⟨chains, ?_⟩
    rw [store]
    refine { blocks := g.blocks, free := g.free, wf := g.wf, chain := fun j => ?_, most := fun j => ?_, idle := fun j => ?_ }
    all_goals obtain ⟨first, last, bytes, free⟩ := jobs j
    · obtain ⟨length, head, tail, links⟩ := g.chain j
      exact ⟨by rw [bytes, length], by rw [first, head], by rw [last, tail], links⟩
    · rw [bytes]
      exact g.most j
    · rw [bytes]
      exact fun now => g.idle j (free now)
  moved _ _ _ h := h
  placed _ _ _ _ h := h
  freed j s h := by
    obtain ⟨chains, g⟩ := (galleySound_iff s).1 h
    exact (galleySound_iff _).2 ⟨_, g.freeJob j⟩
  filled j r s free used first last bytes h := by
    obtain ⟨chains, g⟩ := (galleySound_iff s).1 h
    have empty : chains j = [] := List.eq_nil_of_length_eq_zero (by rw [(g.chain j).length, g.idle j free]; rfl)
    exact (galleySound_iff _).2 ⟨_, g.change j r [] (by rw [empty]; exact .refl _) g.free (chained_empty _ first last bytes)
      (by rw [bytes]; exact Nat.zero_le _) (fun _ => bytes) g.wf fun _ _ _ _ => rfl⟩
  appended j bytes s receiving most room h := by
    obtain ⟨chains, g⟩ := (galleySound_iff s).1 h
    have used : s.jobs[j].state ≠ .free := by rw [receiving]; exact JobState.noConfusion
    exact (galleySound_iff _).2 (g.appendBytes bytes j used most room).1
  linked _ _ _ h := h
  started s _ := (galleySound_iff _).2 ⟨_, galley_start⟩

/-- Settles O58: the chains are carried through the basic changes of the store. -/
theorem galleySoundKept : Obligations.GalleySoundKept := fun _ _ sound run => galleySound_lasting.step run sound

/-! ## TEXT (R26, R40 to R44) -/

/-- Settles O13: each byte goes to the end of the job's last block or of a new one, and no other block is written. -/
theorem textReadsBack : Obligations.TextReadsBack := by
  refine ⟨?appended, fun j bytes s => rfl, ?chain⟩
  case appended =>
    intro j bytes s sound canonical used most room
    obtain ⟨chains, g⟩ := (galleySound_iff s).1 sound
    obtain ⟨own, others⟩ := (g.appendBytes bytes j used most room).2 canonical
    have record : (appendText j bytes s).jobs[j] = (bytes.foldl appendByte (s.store, s.jobs[j])).2 := put_same _ _ _
    refine ⟨by rw [record]; exact own, fun k other => ?_⟩
    have unchanged : (appendText j bytes s).jobs[k] = s.jobs[k] := put_other _ _ _ _ (Ne.symm other)
    rw [unchanged]
    exact others k other
  case chain =>
    intro st r chain count more
    refine ⟨fun length first links => ?_, rfl, rfl⟩
    rw [chainOf, first, blocksFor_eq, ← length]
    exact walk_eq links

end Sys2Proof.Proofs

/-! PROOFS. The requests about jobs (02, 04): OPEN (O9), TEXT (O10 to O12), CLOSE, CANCEL, RELEASE and DECIDE without a job
(O14), CLOSE (O15), RELEASE (O19). -/

namespace Sys2Proof.Proofs

open Sys2Proof.Machine

/-! ## OPEN (R25) -/

theorem recordLimit_none {d : Desk} {j : JobId} {s : State} (owned : ownedBy d s < 12) (free : LowestFree j s) :
    recordLimit d s = none := by
  have below : ¬ Config.deskShare ≤ ownedBy d s := Nat.not_le.2 owned
  have found : freeRecord s = some j := (freeRecord_some j s).2 free
  simp only [recordLimit, if_neg below, found, Option.isNone_some, Bool.false_eq_true, if_false]

theorem recordLimit_limit {d : Desk} {s : State} (owned : 12 ≤ ownedBy d s) : recordLimit d s = some .limit :=
  if_pos owned

theorem recordLimit_full {d : Desk} {s : State} (owned : ownedBy d s < 12) (none : ∀ j : JobId, s.jobs[j].state ≠ .free) :
    recordLimit d s = some .full := by
  have below : ¬ Config.deskShare ≤ ownedBy d s := Nat.not_le.2 owned
  simp only [recordLimit, if_neg below, (freeRecord_none s).2 none, Option.isNone_none, if_true]

/-- What the record limits say, by the owned records and the FREE ones. -/
theorem recordLimit_cases (d : Desk) (s : State) (owned : ownedBy d s < 12) :
    recordLimit d s = none ∨ recordLimit d s = some .full := by
  by_cases none : ∀ j : JobId, s.jobs[j].state ≠ .free
  · exact .inr (recordLimit_full owned none)
  · obtain ⟨j, found⟩ := Option.ne_none_iff_exists'.1 fun e => none ((freeRecord_none s).1 e)
    exact .inl (recordLimit_none owned ((freeRecord_some j s).1 found))

theorem openCheck_busy {d : Desk} {s : State} (receiving : ¬ NotReceiving d s) : openCheck d s = some .busy := by
  have found : (receivingJob d s).isSome = true :=
    Option.isSome_iff_ne_none.2 fun e => receiving ((receivingJob_none d s).1 e)
  simp only [openCheck, found, if_true]

theorem openCheck_idle {d : Desk} {s : State} (idle : NotReceiving d s) :
    openCheck d s =
      (recordLimit d s).or (if s.store.freeCount < s.settings.fullReserve then some .full else none) := by
  have found : receivingJob d s = none := (receivingJob_none d s).2 idle
  simp only [openCheck, found, Option.isSome_none, Bool.false_eq_true, if_false]
  cases recordLimit d s <;> rfl

/-- OPEN refused by a check, in a form that is coded. -/
theorem requestOpen_refused {d : Desk} {payload : List Byte} {f : OpenForm} {c : ReplyCode} {s : State}
    (coded : openForm payload = some f) (check : openCheck d s = some c) :
    requestOpen d payload s = s.reply d 0x10 c [] := by
  simp only [requestOpen, coded, check]
  rfl

theorem requestOpen_taken {d : Desk} {payload : List Byte} {f : OpenForm} {j : JobId} {s : State}
    (coded : openForm payload = some f) (check : openCheck d s = none) (free : LowestFree j s) :
    requestOpen d payload s =
      ((s.modJob j fun _ => openedJob d s.settings.deskLevel[d] f).modLink d fun l =>
        { l with silenceTimer := some s.settings.silence }).reply d 0x10 .ok
          [byteOf j.val, byteOf (openedJob d s.settings.deskLevel[d] f).cls.code,
            byteOf (openedJob d s.settings.deskLevel[d] f).level] := by
  simp only [requestOpen, coded, check, (freeRecord_some j s).2 free]

theorem openForm_coded {t1 t2 m c o e : Byte} {mode : Mode} {asked : JobClass} (modeCoded : modeOf m.toNat = some mode)
    (classCoded : classOf c.toNat = some asked) (origin : o.toNat ≤ 3) (cut : e.toNat ≤ 1) :
    openForm [t1, t2, m, c, o, e] = some ⟨word2 t1 t2, mode, asked, o.toNat, decide (e.toNat = 1)⟩ := by
  simp only [openForm, modeCoded, classCoded, if_pos (And.intro origin cut)]

theorem firstPhase_eq (mode : Mode) : mode.firstPhase = if mode = .proofThenSet then .proof else .set := by
  cases mode <;> rfl

/-- The record that OPEN fills, field by field. -/
theorem openedJob_eq (d : Desk) (level : Nat) (tag : BitVec 16) (mode : Mode) (asked : JobClass) (origin : Nat) (cut : Prop)
    [Decidable cut] :
    openedJob d level ⟨tag, mode, asked, origin, decide cut⟩ =
      { Job.free with
        state := .receiving, owner := d, tag := tag, level := max level origin, mode := mode
        phase := if mode = .proofThenSet then .proof else .set
        cls := if asked = .rush ∧ 0 < level then .priority else asked
        cutAtEnd := decide (cut ∨ (if asked = .rush ∧ 0 < level then .priority else asked) = .rush) } := by
  simp only [openedJob, classTaken, firstPhase_eq, Bool.decide_or]

theorem restartSilence_modJob (d : Desk) (j : JobId) (f : Job → Job) (s : State) :
    (restartSilence d s).modJob j f = restartSilence d (s.modJob j f) := rfl

theorem modLink_restartSilence (d : Desk) (f : Link → Link) (s : State) :
    (restartSilence d s).modLink d f = s.modLink d fun l =>
      f { l with silenceTimer := if l.silenceTimer.isSome then some s.settings.silence else none } :=
  State.modLink_modLink d _ f s

/-- Settles O9: the checks of OPEN in order, and the record, the timer and the reply of one admitted. -/
theorem openTaken : Obligations.OpenTaken := by
  refine ⟨?taken, ?refused, fun d s n => ⟨modeOf_eq n, classOf_eq n, rfl, rfl⟩, rfl⟩
  case taken =>
    intro d t1 t2 m c o e mode asked j s takes allowed modeCoded classCoded origin cut idle owned free room cls level
    have handled : exec (.openJob d [t1, t2, m, c, o, e]) s =
        .next (requestOpen d [t1, t2, m, c, o, e] (restartSilence d s)) :=
      exec_handled _ d ⟨0x10, [t1, t2, m, c, o, e]⟩ s rfl rfl takes allowed
    have check : openCheck d (restartSilence d s) = none := by
      rw [openCheck_idle (s := restartSilence d s) idle, recordLimit_none (s := restartSilence d s) owned free]
      exact if_neg (Nat.not_lt.2 room)
    rw [handled, requestOpen_taken (openForm_coded modeCoded classCoded origin cut) check free, openedJob_eq,
      restartSilence_modJob, modLink_restartSilence, State.reply, State.modLink_modLink]
    rfl
  case refused =>
    intro d t1 t2 m c o e mode asked s takes allowed modeCoded classCoded origin cut answer
    have refused (code : ReplyCode) (check : openCheck d (restartSilence d s) = some code) :
        answer = .next (s.answered d 0x10 code []) :=
      (exec_handled _ d ⟨0x10, [t1, t2, m, c, o, e]⟩ s rfl rfl takes allowed).trans
        (congrArg _ (requestOpen_refused (openForm_coded modeCoded classCoded origin cut) check))
    refine ⟨fun receiving => refused _ (openCheck_busy receiving), fun idle owned => refused _ ?_,
      fun idle owned none => refused _ ?_⟩
    · rw [openCheck_idle (s := restartSilence d s) idle, recordLimit_limit (s := restartSilence d s) owned]
      rfl
    · rw [openCheck_idle (s := restartSilence d s) idle]
      rcases none with none | below
      · rw [recordLimit_full (s := restartSilence d s) owned none]
        rfl
      · rcases recordLimit_cases d (restartSilence d s) owned with limit | limit <;> rw [limit]
        · exact if_pos below
        · rfl

/-! ## TEXT (R26, R43) -/

theorem textJob_some {d : Desk} {n : Byte} {j : JobId} {s : State} (number : n.toNat = j.val)
    (receiving : s.jobs[j].state = .receiving) (owner : s.jobs[j].owner = d) : textJob d n s = some j := by
  simp only [textJob, (jobOf_some n j).2 number, if_pos (And.intro receiving owner)]

theorem textJob_none {d : Desk} {n : Byte} {s : State}
    (unmatched : ∀ j : JobId, n.toNat = j.val → ¬ (s.jobs[j].state = .receiving ∧ s.jobs[j].owner = d)) :
    textJob d n s = none := by
  unfold textJob
  split
  · rename_i j named
    exact if_neg (unmatched j ((jobOf_some n j).1 named))
  · rfl

/-- TEXT on a link that takes it, whatever its text's length. -/
theorem exec_text {d : Desk} {n o1 o2 : Byte} {bytes : List Byte} {s : State} (takes : Takes d s)
    (allowed : Allowed d 0x11 s) (fits : bytes.length ≤ 64) :
    exec (.text d (n :: o1 :: o2 :: bytes)) s = .next (requestText d (n :: o1 :: o2 :: bytes) (restartSilence d s)) := by
  have wellFormed : payloadFits 0 (n :: o1 :: o2 :: bytes) = true := by
    simp only [payloadFits, List.length_cons, decide_eq_true_eq]
    omega
  exact exec_handled (.text d (n :: o1 :: o2 :: bytes)) d ⟨0x11, n :: o1 :: o2 :: bytes⟩ s rfl wellFormed takes allowed

theorem requestText_found {d : Desk} {n o1 o2 : Byte} {bytes : List Byte} {j : JobId} {s : State}
    (length : 1 ≤ bytes.length ∧ bytes.length ≤ 64) (found : textJob d n s = some j) :
    requestText d (n :: o1 :: o2 :: bytes) s = takeText d j (nat2 o1 o2) bytes s := by
  simp only [requestText, if_pos length, found]

theorem requestText_absent {d : Desk} {n o1 o2 : Byte} {bytes : List Byte} {s : State}
    (length : 1 ≤ bytes.length ∧ bytes.length ≤ 64) (absent : textJob d n s = none) :
    requestText d (n :: o1 :: o2 :: bytes) s = s.reply d 0x11 .noJob [] := by
  simp only [requestText, if_pos length, absent]
  rfl

section

variable {d : Desk} {j : JobId} {offset : Nat} {bytes : List Byte} {s : State}

theorem takeText_gap (gap : offset ≠ s.jobs[j].bytes) :
    takeText d j offset bytes s = (abandon d j .gap s).reply d 0x11 .badValue [] := if_pos gap

theorem takeText_oversize (atEnd : offset = s.jobs[j].bytes) (long : 32768 < s.jobs[j].bytes + bytes.length) :
    takeText d j offset bytes s = (abandon d j .oversize s).reply d 0x11 .badValue [] :=
  (if_neg (not_not.2 atEnd)).trans (if_pos (by rwa [atEnd]))

theorem takeText_overrun (atEnd : offset = s.jobs[j].bytes) (fit : s.jobs[j].bytes + bytes.length ≤ 32768)
    (few : s.store.freeCount < blocksNeeded s.jobs[j].bytes bytes.length) :
    takeText d j offset bytes s = (abandon d j .overrun s).reply d 0x11 .full [] :=
  (if_neg (not_not.2 atEnd)).trans ((if_neg (by rw [atEnd]; exact Nat.not_lt.2 fit)).trans (if_pos few))

theorem takeText_taken (atEnd : offset = s.jobs[j].bytes) (fit : s.jobs[j].bytes + bytes.length ≤ 32768)
    (room : blocksNeeded s.jobs[j].bytes bytes.length ≤ s.store.freeCount) :
    takeText d j offset bytes s =
      (if 0 < blocksNeeded s.jobs[j].bytes bytes.length then flowAfterTaking (appendText j bytes s)
        else appendText j bytes s).reply d 0x11 .ok (be2 (s.jobs[j].bytes + bytes.length)) :=
  (if_neg (not_not.2 atEnd)).trans
    ((if_neg (by rw [atEnd]; exact Nat.not_lt.2 fit)).trans (if_neg (Nat.not_lt.2 room)))

end

/-- Settles O11: the checks of TEXT in order, each with its abandonment. -/
theorem textRefused : Obligations.TextRefused := by
  intro d n o1 o2 bytes s takes allowed least most answer heard
  have handled : answer = .next (requestText d (n :: o1 :: o2 :: bytes) heard) := exec_text takes allowed most
  refine ⟨fun unmatched => ?_, fun j number receiving owner => ?_⟩
  · rw [handled, requestText_absent ⟨least, most⟩ (textJob_none (s := heard) unmatched)]
    rfl
  · rw [handled, requestText_found ⟨least, most⟩ (textJob_some (s := heard) number receiving owner)]
    exact ⟨fun gap => congrArg _ (takeText_gap (s := heard) gap),
      fun atEnd long => congrArg _ (takeText_oversize (s := heard) atEnd long),
      fun atEnd fit few => congrArg _ (takeText_overrun (s := heard) atEnd fit few)⟩

/-- Settles O10: the store after the append, and the place of one byte. -/
theorem textAppended : Obligations.TextAppended := by
  refine ⟨?taken, ?byte⟩
  case taken =>
    intro d n o1 o2 bytes j s takes allowed least most number receiving owner atEnd fit new room r kept
    rw [exec_text takes allowed most,
      requestText_found ⟨least, most⟩ (textJob_some (s := restartSilence d s) number receiving owner),
      takeText_taken (s := restartSilence d s) atEnd fit room]
    refine congrArg (fun t : State => Host.Outcome.next (t.reply d 0x11 .ok (be2 (s.jobs[j].bytes + bytes.length)))) ?_
    show (if 0 < new then (if kept.store.freeCount < kept.settings.low then kept.decideHold else kept) else kept) = _
    by_cases taken : 0 < new
    · simp only [taken, true_and]
      rfl
    · simp only [taken, false_and, if_false]
  case byte =>
    intro st j b wf t
    refine ⟨fun last room named => appendByte_room st j b last room named, fun head rest full free other => ?_⟩
    obtain ⟨record, left, cells, next, -⟩ := appendByte_block st j b head rest full free wf other
    exact ⟨record, left, cells, next⟩

/-! ## The bytes that TEXT stores (R44) -/

/-- A byte appended is written at its address, if it has one. -/
theorem appendByte_read (p : Store × Job) (b : Byte) (a : Nat) (wf : Memory.wf p.1.cells = true)
    (other : appendAddress p ≠ some a) :
    Memory.read (appendByte p b).1.cells a = Memory.read p.1.cells a := by
  obtain ⟨st, r⟩ := p
  by_cases full : r.bytes % Config.blockBytes = 0
  · simp only [appendAddress, if_pos full] at other
    cases free : st.freeList with
    | nil =>
      have none : st.allocate = none := by
        have count : st.freeCount = 0 := by rw [freeCount_eq, free, List.length_nil]
        simp only [Store.freeCount, Nat.add_eq_zero_iff, List.length_eq_zero_iff] at count
        simp only [Store.allocate, if_neg (show ¬ st.fresh < Config.blocks by omega), count.2]
      simp only [appendByte, if_pos full, none]
    | cons head rest =>
      obtain ⟨u, taken, -, -, cells⟩ := allocate_of_freeList free
      have apart : a ≠ Config.blockBytes * head := fun e => other (by rw [taken, e]; rfl)
      have written : (appendByte (st, r) b).1.cells = Memory.write st.cells (Config.blockBytes * head) b := by
        simp only [appendByte, if_pos full, taken, ← cells]
        cases r.lastBlock <;> rfl
      rw [written, Memory.read_write_other _ _ _ _ wf apart]
  · simp only [appendAddress, if_neg full] at other
    cases named : r.lastBlock with
    | none => simp only [appendByte, if_neg full, named]
    | some last =>
      have apart : a ≠ Config.blockBytes * last + r.bytes % Config.blockBytes := fun e => other (by rw [named, e]; rfl)
      simp only [appendByte, if_neg full, named]
      exact Memory.read_write_other _ _ _ _ wf apart

theorem appendBytes_read (bytes : List Byte) (p : Store × Job) (a : Nat) (wf : Memory.wf p.1.cells = true)
    (other : a ∉ appendAddresses p bytes) :
    Memory.read (bytes.foldl appendByte p).1.cells a = Memory.read p.1.cells a := by
  induction bytes generalizing p with
  | nil => rfl
  | cons b rest ih =>
    simp only [appendAddresses, List.mem_append, Option.mem_toList, not_or] at other
    calc Memory.read (rest.foldl appendByte (appendByte p b)).1.cells a
      _ = Memory.read (appendByte p b).1.cells a := ih _ (appendByte_wf p b wf) other.2
      _ = Memory.read p.1.cells a := appendByte_read p b a wf other.1

/-- Settles O12: a refusal writes no byte, and an append its own alone. -/
theorem textStoresOnlyItsBytes : Obligations.TextStoresOnlyItsBytes := by
  refine ⟨fun d n o1 o2 bytes j s t takes allowed canonical most number receiving owner run a other => ?_,
    fun m a x b wf => ?_⟩
  · rw [exec_text takes allowed most, Host.Outcome.next.injEq] at run
    by_cases least : 1 ≤ bytes.length
    · rw [requestText_found ⟨least, most⟩ (textJob_some (s := restartSilence d s) number receiving owner)] at run
      subst run
      have stands {u : State} (same : u.kept = s.kept) : Memory.read u.store.cells a = Memory.read s.store.cells a := by
        rw [keepsCells same]
      unfold takeText
      dsimp only
      split
      · exact stands (by simp)
      · split
        · exact stands (by simp)
        · split
          · exact stands (by simp)
          · have appended : (appendText j bytes (restartSilence d s)).store.cells =
                (bytes.foldl appendByte (s.store, s.jobs[j])).1.cells := rfl
            have cells : (if 0 < blocksNeeded (restartSilence d s).jobs[j].bytes bytes.length then
                flowAfterTaking (appendText j bytes (restartSilence d s))
                else appendText j bytes (restartSilence d s)).store.cells =
                (appendText j bytes (restartSilence d s)).store.cells := by
              split
              · exact keepsCells (flowAfterTaking_kept _)
              · rfl
            exact (congrArg (Memory.read · a) (cells.trans appended)).trans
              (appendBytes_read bytes (s.store, s.jobs[j]) a canonical other)
    · have refused : requestText d (n :: o1 :: o2 :: bytes) (restartSilence d s) =
          (restartSilence d s).reply d 0x11 .badValue [] := if_neg fun length => least length.1
      rw [refused] at run
      subst run
      rfl
  · by_cases same : x = a
    · rw [if_pos same, same, Memory.read_write_same _ _ _ wf]
    · rw [if_neg same, Memory.read_write_other _ _ _ _ wf same]

end Sys2Proof.Proofs

/-! PROOFS. The requests about jobs, continued (02, 04): no job matched (O14), CLOSE (O15), CANCEL (O16), DECIDE and the
held timeout (O18), RELEASE (O19), QUERY-JOB (O21). -/

namespace Sys2Proof.Proofs

open Sys2Proof.Machine

/-! ## The job a request names (R27) -/

theorem word2_be2 (t : BitVec 16) : word2 (byteOf (t.toNat / 256)) (byteOf t.toNat) = t := by
  have bound := t.isLt
  apply BitVec.eq_of_toNat_eq
  rw [word2, nat2, BitVec.toNat_ofNat, toNat_byteOf, toNat_byteOf]
  omega

section

variable {d : Desk} {n t1 t2 : Byte} {j : JobId} {s : State}

theorem exec_close (takes : Takes d s) (allowed : Allowed d 0x12 s) :
    exec (.close d [n, t1, t2]) s = .next (requestClose d [n, t1, t2] (restartSilence d s)) :=
  exec_handled _ d ⟨0x12, [n, t1, t2]⟩ s rfl rfl takes allowed

theorem requestClose_unmatched (unmatched : NoMatch d n (word2 t1 t2) s) :
    requestClose d [n, t1, t2] s = s.reply d 0x12 .noJob [] := by
  simp only [requestClose, (matchJob_none d n _ s).2 unmatched]
  rfl

theorem requestClose_matched (found : Matches d n (word2 t1 t2) j s) :
    requestClose d [n, t1, t2] s =
      if s.jobs[j].state = .receiving then (closeJob d j s).reply d 0x12 .ok [] else s.reply d 0x12 .badState [] := by
  simp only [requestClose, (matchJob_some d n _ j s).2 found]
  rfl

theorem exec_cancel (takes : Takes d s) (allowed : Allowed d 0x13 s) :
    exec (.cancel d [n, t1, t2]) s = .next (requestCancel d [n, t1, t2] (restartSilence d s)) :=
  exec_handled _ d ⟨0x13, [n, t1, t2]⟩ s rfl rfl takes allowed

theorem requestCancel_unmatched (unmatched : NoMatch d n (word2 t1 t2) s) :
    requestCancel d [n, t1, t2] s = s.reply d 0x13 .noJob [] := by
  simp only [requestCancel, (matchJob_none d n _ s).2 unmatched]
  rfl

theorem requestCancel_matched (found : Matches d n (word2 t1 t2) j s) :
    requestCancel d [n, t1, t2] s =
      if s.jobs[j].state = .receiving then (abandon d j .cancel s).reply d 0x13 .ok []
      else if s.jobs[j].state = .cancelled then s.reply d 0x13 .badState []
      else (settle s.store.freeCount (cancelJob j s)).reply d 0x13 .ok [] := by
  simp only [requestCancel, (matchJob_some d n _ j s).2 found]
  cases s.jobs[j].state <;> rfl

theorem exec_release (takes : Takes d s) (allowed : Allowed d 0x15 s) :
    exec (.release d [n, t1, t2]) s = .next (requestRelease d [n, t1, t2] (restartSilence d s)) :=
  exec_handled _ d ⟨0x15, [n, t1, t2]⟩ s rfl rfl takes allowed

theorem requestRelease_unmatched (unmatched : NoMatch d n (word2 t1 t2) s) :
    requestRelease d [n, t1, t2] s = s.reply d 0x15 .noJob [] := by
  simp only [requestRelease, (matchJob_none d n _ s).2 unmatched]
  rfl

theorem requestRelease_matched (found : Matches d n (word2 t1 t2) j s) :
    requestRelease d [n, t1, t2] s =
      if s.jobs[j].state = .awaitRelease then (trySelect (releaseJob j s)).reply d 0x15 .ok []
      else s.reply d 0x15 .badState [] := by
  simp only [requestRelease, (matchJob_some d n _ j s).2 found]
  rfl

end

/-! ## DECIDE (R65) -/

/-- The action that the frame of a DECIDE command carries: its word index is one byte. -/
def sentAction : Action → Action
  | .breakBefore k => .breakBefore (k % 256)
  | a => a

theorem sentAction_eq (a : Action) (fits : ∀ k, a = .breakBefore k → k < 256) : sentAction a = a := by
  cases a with
  | breakBefore k => rw [sentAction, Nat.mod_eq_of_lt (fits k rfl)]
  | proposed => rfl
  | default => rfl
  | ragged => rfl

/-- The frame of a DECIDE command is well-formed and codes its action. -/
theorem decideCommand_frame (d : Desk) (n : Byte) (tag : BitVec 16) (a : Action) :
    ∃ code rest, frameOf (decideCommand d n tag a) =
        some (d, ⟨0x14, n :: byteOf (tag.toNat / 256) :: byteOf tag.toNat :: code :: rest⟩) ∧
      (decideCommand d n tag a).wellFormed = true ∧ actionForm code rest = some (sentAction a) := by
  cases a with
  | proposed => exact ⟨0, [], rfl, rfl, rfl⟩
  | default => exact ⟨1, [], rfl, rfl, rfl⟩
  | ragged => exact ⟨2, [], rfl, rfl, rfl⟩
  | breakBefore k => exact ⟨3, [byteOf k], rfl, rfl, by simp [actionForm, sentAction, toNat_byteOf]⟩

section

variable {d : Desk} {n : Byte} {tag : BitVec 16} {a : Action} {j : JobId} {s : State}

theorem exec_decide_unmatched (takes : Takes d s) (allowed : Allowed d 0x14 s) (unmatched : NoMatch d n tag s) :
    exec (decideCommand d n tag a) s = .next (s.answered d 0x14 .noJob []) := by
  obtain ⟨code, rest, frame, wellFormed, coded⟩ := decideCommand_frame d n tag a
  refine (exec_handled _ d _ s frame wellFormed takes allowed).trans (congrArg _ ?_)
  have absent : matchJob d n tag (restartSilence d s) = none := (matchJob_none d n tag _).2 unmatched
  show requestDecide d (n :: _ :: _ :: code :: rest) _ = _
  simp only [requestDecide, coded, word2_be2, absent]
  rfl

theorem exec_decide_matched (takes : Takes d s) (allowed : Allowed d 0x14 s) (found : Matches d n tag j s) :
    exec (decideCommand d n tag a) s = .next (decideJob d j (sentAction a) (restartSilence d s)) := by
  obtain ⟨code, rest, frame, wellFormed, coded⟩ := decideCommand_frame d n tag a
  refine (exec_handled _ d _ s frame wellFormed takes allowed).trans (congrArg _ ?_)
  have named : matchJob d n tag (restartSilence d s) = some j := (matchJob_some d n tag j _).2 found
  show requestDecide d (n :: _ :: _ :: code :: rest) _ = _
  simp only [requestDecide, coded, word2_be2, named]

theorem decideJob_held {h : HeldRecord} (held : s.jobs[j].state = .held) (record : s.jobs[j].held = some h) :
    decideJob d j a s =
      if actionValid h a = true then (trySelect (decideHeld j h a s)).reply d 0x14 .ok []
      else s.reply d 0x14 .badValue [] := by
  simp only [decideJob, held, record]
  rfl

theorem decideJob_notHeld (notHeld : s.jobs[j].state ≠ .held) : decideJob d j a s = s.reply d 0x14 .badState [] := by
  unfold decideJob
  split
  · exact absurd ‹_› notHeld
  · rfl

end

/-- Settles O14: a request that matches no job is refused before anything else is read. -/
theorem unmatchedJobRefused : Obligations.UnmatchedJobRefused := by
  intro d n t1 t2 s takes unmatched
  refine ⟨fun allowed => ?_, fun allowed => ?_, fun allowed => ?_,
    fun a allowed => exec_decide_unmatched takes allowed unmatched⟩
  · rw [exec_close takes allowed, requestClose_unmatched (s := restartSilence d s) unmatched]
    rfl
  · rw [exec_cancel takes allowed, requestCancel_unmatched (s := restartSilence d s) unmatched]
    rfl
  · rw [exec_release takes allowed, requestRelease_unmatched (s := restartSilence d s) unmatched]
    rfl

/-- Settles O15: CLOSE by the job's state and its byte count. -/
theorem closeTaken : Obligations.CloseTaken := by
  intro d n t1 t2 j s takes allowed found answer stopped
  have handled : answer = .next (if s.jobs[j].state = .receiving
      then (closeJob d j (restartSilence d s)).reply d 0x12 .ok [] else s.answered d 0x12 .badState []) :=
    (exec_close takes allowed).trans (congrArg _ (requestClose_matched (s := restartSilence d s) found))
  have silenced : stopSilence d (restartSilence d s) = stopped := modLink_restartSilence d _ s
  refine ⟨fun receiving text => ?_, fun receiving empty => ?_, fun other => by rw [handled, if_neg other]⟩
  · have notEmpty : ¬ (restartSilence d s).jobs[j].bytes = 0 := text
    rw [handled, if_pos receiving, closeJob, if_neg notEmpty, ← silenced]
    rfl
  · have empty : (restartSilence d s).jobs[j].bytes = 0 := empty
    rw [handled, if_pos receiving, closeJob, if_pos empty, ← silenced]
    rfl

/-- Settles O19: RELEASE by the job's state. -/
theorem releaseTaken : Obligations.ReleaseTaken := by
  intro d n t1 t2 j s takes allowed found answer
  have handled : answer = .next (if s.jobs[j].state = .awaitRelease
      then (trySelect (releaseJob j (restartSilence d s))).reply d 0x15 .ok [] else s.answered d 0x15 .badState []) :=
    (exec_release takes allowed).trans (congrArg _ (requestRelease_matched (s := restartSilence d s) found))
  refine ⟨fun waits => ?_, fun other => by rw [handled, if_neg other]⟩
  rw [handled, if_pos waits]
  rfl

/-! ## CANCEL and the decision of R49 -/

theorem kick_hold (l : Link) : l.kick.hold = l.hold := by
  rcases l.kick_cases with ⟨-, e⟩ | ⟨_, -, -, e⟩ | ⟨_, _, -, -, -, e⟩ <;> rw [e]

theorem takeResume_hold (l : Link) : l.takeResume.hold = false := by
  by_cases held : l.hold = true
  · rw [Link.takeResume, if_pos held]
    exact kick_hold _
  · rw [Link.takeResume, if_neg held]
    exact Bool.eq_false_iff.2 held

theorem flowIfFreed_hold (before : Nat) (s : State) (rose : before < s.store.freeCount)
    (high : s.settings.high ≤ s.store.freeCount) (d : Desk) : (flowIfFreed before s).links[d].hold = false := by
  rw [flowIfFreed, if_pos rose, flowAfterFreeing, if_pos high]
  have resumed : s.decideResume.links[d] = s.links[d].takeResume := State.modLinks_get _ _ _ _
  rw [resumed]
  exact takeResume_hold _

theorem flowIfFreed_store (before : Nat) (s : State) : (flowIfFreed before s).store = s.store := by
  unfold flowIfFreed flowAfterFreeing
  split
  · split <;> rfl
  · rfl

/-- Settles O16: CANCEL by the job's state, and the last step of what follows an event. -/
theorem cancelTaken : Obligations.CancelTaken := by
  refine ⟨fun d n t1 t2 j s takes allowed found => ?_, fun before s => ?_⟩
  · have handled : exec (.cancel d [n, t1, t2]) s = .next (if s.jobs[j].state = .receiving
        then (abandon d j .cancel (restartSilence d s)).reply d 0x13 .ok []
        else if s.jobs[j].state = .cancelled then s.answered d 0x13 .badState []
        else (settle s.store.freeCount (cancelJob j (restartSilence d s))).reply d 0x13 .ok []) := by
      rw [exec_cancel takes allowed, requestCancel_matched (s := restartSilence d s) found]
      rfl
    refine ⟨fun receiving => ?_, fun cancelled => ?_, fun notReceiving notCancelled => ?_⟩
    · rw [handled, if_pos receiving]
    · rw [handled, if_neg (by rw [cancelled]; exact JobState.noConfusion), if_pos cancelled]
    · rw [handled, if_neg notReceiving, if_neg notCancelled]
  · intro t rose high d
    have last : ∃ u : State, t = flowIfFreed before u ∧ u.settings = s.settings :=
      ⟨_, rfl, keepsSettings (by simp [settleImaging])⟩
    obtain ⟨u, is, settings⟩ := last
    rw [is, flowIfFreed_store] at rose high
    rw [is]
    exact flowIfFreed_hold before u rose (settings ▸ high) d

/-! ## The decision list (R67) -/

/-- The decision that a list holds for a line and an exception. -/
def decisionAt (ds : List Decision) (line : Nat) (e : Exc) : Option Action :=
  (ds.find? fun x => x.line = line).bind fun x => x.get e

theorem get_put (d : Decision) (k e : Exc) (a : Option Action) : (d.put k a).get e = if e = k then a else d.get e := by
  cases k <;> cases e <;> rfl

theorem put_line (d : Decision) (k : Exc) (a : Option Action) : (d.put k a).line = d.line := by
  cases k <;> rfl

theorem get_keep (d : Decision) (applied : ExcSet) (e : Exc) :
    (d.keep applied).get e = if applied.has e then d.get e else none := by
  cases e <;> rfl

theorem get_bare (line : Nat) (e : Exc) : (Decision.bare line).get e = none := by cases e <;> rfl

theorem get_of_isBare {d : Decision} (bare : d.isBare = true) (e : Exc) : d.get e = none := by
  simp only [Decision.isBare, Bool.and_eq_true, Option.isNone_iff_eq_none] at bare
  obtain ⟨⟨⟨⟨l, o⟩, h⟩, n⟩, m⟩ := bare
  cases e <;> assumption

theorem decisionAt_cons (d : Decision) (ds : List Decision) (line : Nat) (e : Exc) :
    decisionAt (d :: ds) line e = if d.line = line then d.get e else decisionAt ds line e := by
  by_cases same : d.line = line <;> simp [decisionAt, same]

theorem decisionAt_absent {ds : List Decision} {line : Nat} (absent : ∀ x ∈ ds, x.line ≠ line) (e : Exc) :
    decisionAt ds line e = none := by
  have none : ds.find? (fun x => x.line = line) = none := List.find?_eq_none.2 fun x hx => by simpa using absent x hx
  rw [decisionAt, none]
  rfl

theorem decisionAt_insert {x : Decision} {ds : List Decision} (absent : ∀ y ∈ ds, y.line ≠ x.line) (line : Nat) (e : Exc) :
    decisionAt (insertDecision x ds) line e = if line = x.line then x.get e else decisionAt ds line e := by
  induction ds with
  | nil => simp only [insertDecision, decisionAt_cons, eq_comm]
  | cons y rest ih =>
    have ih := ih fun z hz => absent z (List.mem_cons_of_mem y hz)
    have notThis : y.line ≠ x.line := absent y List.mem_cons_self
    unfold insertDecision
    split
    · simp only [decisionAt_cons, eq_comm]
    · rw [decisionAt_cons, decisionAt_cons, ih]
      by_cases here : y.line = line
      · rw [if_pos here, if_neg (here ▸ notThis), if_pos here]
      · rw [if_neg here, if_neg here]

theorem mem_insertDecision {x y : Decision} {ds : List Decision} : y ∈ insertDecision x ds ↔ y = x ∨ y ∈ ds := by
  induction ds with
  | nil => simp [insertDecision]
  | cons z rest ih =>
    unfold insertDecision
    split
    · simp
    · rw [List.mem_cons, ih, List.mem_cons]
      exact or_left_comm

theorem insertDecision_length (x : Decision) (ds : List Decision) : (insertDecision x ds).length = ds.length + 1 := by
  induction ds with
  | nil => rfl
  | cons z rest ih =>
    unfold insertDecision
    split
    · rfl
    · rw [List.length_cons, ih, List.length_cons]

theorem insertDecision_pairwise {x : Decision} {ds : List Decision} (absent : ∀ y ∈ ds, y.line ≠ x.line)
    (sorted : ds.Pairwise fun x y => x.line < y.line) : (insertDecision x ds).Pairwise fun x y => x.line < y.line := by
  induction ds with
  | nil => exact List.pairwise_singleton _ x
  | cons z rest ih =>
    obtain ⟨above, sortedRest⟩ := List.pairwise_cons.1 sorted
    unfold insertDecision
    split
    · rename_i below
      refine List.pairwise_cons.2 ⟨fun y hy => ?_, sorted⟩
      rcases List.mem_cons.1 hy with rfl | later
      · exact below
      · exact below.trans (above y later)
    · rename_i notBelow
      refine List.pairwise_cons.2 ⟨fun y hy => ?_, ih (fun y hy => absent y (List.mem_cons_of_mem z hy)) sortedRest⟩
      rcases mem_insertDecision.1 hy with rfl | later
      · have := absent z List.mem_cons_self
        omega
      · exact above y later

/-- The decision joins the entry of its line. -/
def joinDecision (line : Nat) (k : Exc) (a : Action) (d : Decision) : Decision :=
  if d.line = line then d.put k (some a) else d

theorem joinDecision_line (line : Nat) (k : Exc) (a : Action) (d : Decision) :
    (joinDecision line k a d).line = d.line := by
  unfold joinDecision
  split
  · exact put_line _ _ _
  · rfl

theorem decisionAt_join (ds : List Decision) (line n : Nat) (k e : Exc) (a : Action) :
    decisionAt (ds.map (joinDecision line k a)) n e =
      if (n = line ∧ e = k) ∧ ∃ x ∈ ds, x.line = line then some a else decisionAt ds n e := by
  induction ds with
  | nil => simp [decisionAt]
  | cons x rest ih =>
    rw [List.map_cons, decisionAt_cons, decisionAt_cons, joinDecision_line, ih]
    by_cases here : x.line = n
    · rw [if_pos here, if_pos here, joinDecision]
      by_cases at_ : x.line = line
      · rw [if_pos at_, get_put]
        have same : n = line := here.symm.trans at_
        simp [same, at_]
      · have other : ¬ n = line := fun h => at_ (here.trans h)
        rw [if_neg at_, if_neg fun h => other h.1.1]
    · rw [if_neg here, if_neg here]
      by_cases same : n = line
      · subst same
        simp [here]
      · rw [if_neg fun h => same h.1.1, if_neg fun h => same h.1.1]

theorem recordDecision_join {line : Nat} {ds : List Decision} (entry : ∃ x ∈ ds, x.line = line) (k : Exc) (a : Action) :
    recordDecision line k a ds = ds.map (joinDecision line k a) :=
  if_pos (by simpa using entry)

theorem recordDecision_new {line : Nat} {ds : List Decision} (absent : ∀ x ∈ ds, x.line ≠ line) (k : Exc) (a : Action) :
    recordDecision line k a ds =
      insertDecision ((Decision.bare line).put k (some a)) (if ds.length < 8 then ds else ds.drop 1) :=
  if_neg (by simpa using absent)

/-- A recorded decision in a list where its line has no entry. -/
theorem decisionAt_new {line : Nat} {ds : List Decision} (absent : ∀ x ∈ ds, x.line ≠ line) (k : Exc) (a : Action) (n : Nat)
    (e : Exc) :
    decisionAt (recordDecision line k a ds) n e =
      if n = line then (if e = k then some a else none)
      else decisionAt (if ds.length < 8 then ds else ds.drop 1) n e := by
  have absent' : ∀ x ∈ (if ds.length < 8 then ds else ds.drop 1), x.line ≠ ((Decision.bare line).put k (some a)).line := by
    intro x hx
    rw [put_line]
    split at hx
    · exact absent x hx
    · exact absent x (List.mem_of_mem_drop hx)
  rw [recordDecision_new absent, decisionAt_insert absent', put_line, get_put, get_bare]
  rfl

theorem decisionAt_dropUnapplied (line : Nat) (applied : ExcSet) (ds : List Decision)
    (sorted : ds.Pairwise fun x y => x.line < y.line) (n : Nat) (e : Exc) :
    decisionAt (dropUnapplied line applied ds) n e =
      if n = line ∧ applied.has e = false then none else decisionAt ds n e := by
  induction ds with
  | nil => simp [dropUnapplied, decisionAt]
  | cons x rest ih =>
    obtain ⟨above, sortedRest⟩ := List.pairwise_cons.1 sorted
    have ih := ih sortedRest
    by_cases atLine : x.line = line
    · have elsewhere : ∀ y ∈ rest, y.line ≠ line := fun y hy => by have := above y hy; omega
      by_cases bare : (x.keep applied).isBare = true
      · have gone : dropUnapplied line applied (x :: rest) = dropUnapplied line applied rest := by
          have : (x.keep applied).line = line := atLine
          simp [dropUnapplied, atLine, bare, this]
        rw [gone, ih, decisionAt_cons]
        by_cases same : n = line
        · have empty := get_of_isBare bare e
          rw [get_keep] at empty
          rw [same, if_pos atLine, decisionAt_absent elsewhere]
          cases has : applied.has e <;> simp_all
        · rw [if_neg (fun h => same h.1), if_neg (fun h => same h.1), if_neg fun h => same (h.symm.trans atLine)]
      · have kept : dropUnapplied line applied (x :: rest) = x.keep applied :: dropUnapplied line applied rest := by
          simp [dropUnapplied, atLine, bare]
        have keptLine : (x.keep applied).line = x.line := rfl
        rw [kept, decisionAt_cons, decisionAt_cons, ih, get_keep, keptLine]
        by_cases same : x.line = n
        · have same' : n = line := same.symm.trans atLine
          cases has : applied.has e <;> simp [same, same']
        · simp [same]
    · have kept : dropUnapplied line applied (x :: rest) = x :: dropUnapplied line applied rest := by
        simp [dropUnapplied, atLine]
      rw [kept, decisionAt_cons, decisionAt_cons, ih]
      by_cases same : x.line = n
      · have other : ¬ n = line := fun h => atLine (same.trans h)
        simp [same, other]
      · simp [same]

theorem actionValid_iff (h : HeldRecord) (a : Action) :
    actionValid h a = true ↔
      match a with
      | .proposed => True
      | .default => True
      | .ragged => h.kind ≠ .missing
      | .breakBefore k => h.kind ≠ .missing ∧ 2 ≤ k ∧ k ≤ h.words := by
  cases a <;> simp [actionValid]

/-- Settles O18: DECIDE by the held record, the held timer as DECIDE, and the list entry by entry. -/
theorem decideAndHeldTimeoutTaken : Obligations.DecideAndHeldTimeoutTaken := by
  refine ⟨?decide, ?timeout, ?record, ?drop, fun x => rfl⟩
  case decide =>
    intro d n t1 t2 a j s takes allowed found fits answer valid
    have handled : answer = .next (decideJob d j a (restartSilence d s)) := by
      rw [← sentAction_eq a fits]
      exact exec_decide_matched takes allowed found
    have validIff (h : HeldRecord) : valid h ↔ actionValid h a = true := (actionValid_iff h a).symm
    refine ⟨fun h held record ok => ?_, fun h held record bad => ?_, fun notHeld => ?_⟩
    · rw [handled, decideJob_held (s := restartSilence d s) held record, if_pos ((validIff h).1 ok)]
      rfl
    · rw [handled, decideJob_held (s := restartSilence d s) held record, if_neg fun e => bad ((validIff h).2 e)]
      rfl
    · rw [handled, decideJob_notHeld (s := restartSilence d s) notHeld]
      rfl
  case timeout =>
    intro j h s held running record
    obtain ⟨time, timer⟩ := Option.isSome_iff_exists.1 running
    have expired : heldExpired j s = trySelect (decideHeld j h .default s) := by
      simp only [heldExpired, held, timer, record]
    rw [exec_heldTimeout, expired]
    rfl
  case record =>
    intro line k a ds found t
    have at_ (l : List Decision) (n : Nat) (e : Exc) : found l n e = decisionAt l n e := rfl
    refine ⟨?_, fun entry n e other => ?_, fun absent => ⟨fun e other => ?_, fun room n e other => ?_, fun full n e other => ?_⟩,
      fun sorted fits => ?_⟩
    · rw [at_]
      by_cases entry : ∃ x ∈ ds, x.line = line
      · rw [show t = _ from recordDecision_join entry k a, decisionAt_join, if_pos ⟨⟨rfl, rfl⟩, entry⟩]
      · have absent : ∀ x ∈ ds, x.line ≠ line := by simpa using entry
        rw [decisionAt_new absent, if_pos rfl, if_pos rfl]
    · rw [at_, at_, show t = _ from recordDecision_join entry k a, decisionAt_join,
        if_neg fun h => other.elim (· h.1.1) (· h.1.2)]
    · rw [at_, decisionAt_new absent, if_pos rfl, if_neg other]
    · rw [at_, decisionAt_new absent, if_neg other, if_pos room]
      rfl
    · rw [at_, decisionAt_new absent, if_neg other, if_neg (Nat.not_lt.2 full)]
      rfl
    · by_cases entry : ∃ x ∈ ds, x.line = line
      · rw [show t = _ from recordDecision_join entry k a, List.length_map]
        refine ⟨List.pairwise_map.2 (sorted.imp fun below => ?_), fits⟩
        rwa [joinDecision_line, joinDecision_line]
      · have absent : ∀ x ∈ ds, x.line ≠ line := by simpa using entry
        rw [show t = _ from recordDecision_new absent k a, insertDecision_length]
        split
        · exact ⟨insertDecision_pairwise (fun x hx => by rw [put_line]; exact absent x hx) sorted, by omega⟩
        · refine ⟨insertDecision_pairwise (fun x hx => ?_) sorted.drop, ?_⟩
          · rw [put_line]
            exact absent x (List.mem_of_mem_drop hx)
          · rw [List.length_drop]
            omega
  case drop =>
    intro line applied ds sorted found t n e
    exact decisionAt_dropUnapplied line applied ds sorted n e

end Sys2Proof.Proofs

/-! PROOFS. Fonts and the mount table (05): the lookups, the access checks and PROBE (O23), strips classified (O26) and
classified again, DIR-WRITE (O24), WIDTH-WRITE (O25). -/

namespace Sys2Proof.Proofs

open Sys2Proof.Machine

/-! ## The directory and the mount table read (R78, R85) -/

theorem descAt_of_lt (s : State) (n : Fin 64) : descAt s n.val = some s.dir.desc[n] := dif_pos n.isLt

theorem descAt_of_ge (s : State) {n : Nat} (above : 64 ≤ n) : descAt s n = none := dif_neg (Nat.not_lt.2 above)

/-- A number with a descriptor is one of the 64. -/
theorem descAt_some {s : State} {n : Nat} {x : Descriptor} (h : descAt s n = some x) :
    ∃ m : Fin 64, m.val = n ∧ s.dir.desc[m] = x := by
  unfold descAt at h
  split at h
  · exact ⟨⟨n, ‹_›⟩, rfl, Option.some.inj h⟩
  · cases h

theorem tableAt_of_lt (s : State) (k : Fin 24) : tableAt s k.val = s.dir.tables[k] := dif_pos k.isLt

theorem font_eq_some {p : Position} {f : Nat} : p.font = some f ↔ ∃ c, p.st = .mounted f c := by
  unfold Position.font
  split
  · rename_i g c is
    rw [is]
    simp
  · rename_i notMounted
    constructor
    · intro h
      cases h
    · rintro ⟨c, is⟩
      exact absurd is (notMounted f c)

theorem mountedAt_none {s : State} {n : Nat} : mountedAt s n = none ↔ ∀ p : Pos, s.mount.pos[p].font ≠ some n := by
  simp only [mountedAt, show allPositions = List.finRange 6 from rfl, find_finRange_none, decide_eq_false_iff_not, ne_eq]

theorem isMounted_iff {s : State} {n : Nat} : isMounted s n = true ↔ ∃ p : Pos, s.mount.pos[p].font = some n := by
  rw [isMounted, Option.isSome_iff_ne_none, ne_eq, mountedAt_none]
  simp

theorem mountedAt_some {s : State} (once : MountedOnce s) {n : Nat} {p : Pos} :
    mountedAt s n = some p ↔ s.mount.pos[p].font = some n := by
  simp only [mountedAt, show allPositions = List.finRange 6 from rfl, find_finRange, decide_eq_true_eq,
    decide_eq_false_iff_not]
  exact ⟨fun h => h.1, fun h => ⟨h, fun q before => once p q (Ne.symm (ne_of_lt before)) n h⟩⟩

theorem strip_eq_some {x : Descriptor} {c : Nat} :
    x.strip = some c ↔ ∃ k lv tb dn sb hy nm, x = .font k lv c tb dn sb hy nm := by
  cases x <;> simp [Descriptor.strip]

/-! ## The access checks (R80, R81) -/

/-- The number is a font, with a loaded width table. -/
def LoadedFont (s : State) (f : Nat) : Prop :=
  ∃ k lv st tb dn sb hy nm, descAt s f = some (.font k lv st tb dn sb hy nm) ∧ (tableAt s tb).loaded = true

theorem tableTest_of_loaded {s : State} {f : Nat} (loaded : LoadedFont s f) (z l : Option Nat) :
    tableTest s f z l = .pass f z l := by
  obtain ⟨k, lv, st, tb, dn, sb, hy, nm, is, table⟩ := loaded
  simp only [tableTest, is, table, if_true]

theorem tableTest_of_unloaded {s : State} {f : Nat} (unloaded : ¬ LoadedFont s f) (z l : Option Nat) :
    tableTest s f z l = .fontRange := by
  unfold tableTest
  split
  · rename_i k lv st tb dn sb hy nm is
    exact if_neg fun table => unloaded ⟨k, lv, st, tb, dn, sb, hy, nm, is, table⟩
  · rfl

/-- The table test and the mount test of a font that a check has come to. -/
theorem mountTest_reaches (s : State) (f : Nat) (z l : Option Nat) (due : Bool) :
    (¬ LoadedFont s f → mountTest s due (tableTest s f z l) = .fontRange) ∧
    (LoadedFont s f → due = true → (¬ ∃ p : Pos, s.mount.pos[p].font = some f) →
      mountTest s due (tableTest s f z l) = .wait f) ∧
    (LoadedFont s f → (due = false ∨ ∃ p : Pos, s.mount.pos[p].font = some f) →
      mountTest s due (tableTest s f z l) = .pass f z l) := by
  refine ⟨fun unloaded => ?_, fun loaded imaging nowhere => ?_, fun loaded stands => ?_⟩
  · rw [tableTest_of_unloaded unloaded]
    rfl
  · have unmounted : isMounted s f = false := by
      rw [← isMounted_iff] at nowhere
      simpa using nowhere
    rw [tableTest_of_loaded loaded]
    simp [mountTest, imaging, unmounted]
  · rw [tableTest_of_loaded loaded]
    rcases stands with proof | mounted
    · simp [mountTest, proof]
    · simp [mountTest, isMounted_iff.2 mounted]

theorem accessTests_unnamed {s : State} {n : Nat} (level : Nat) (none : 63 < n ∨ ∃ nm, descAt s n = some (.empty nm)) :
    accessTests s n level = .fontRange := by
  rcases none with above | ⟨nm, empty⟩
  · simp only [accessTests, descAt_of_ge s (n := n) above]
  · simp only [accessTests, empty]

theorem accessTests_gate {s : State} {n lv tg : Nat} {z l : Option Nat} {nm : Name} (level : Nat)
    (is : descAt s n = some (.gate lv tg z l nm)) :
    accessTests s n level = if lv < level then .fontDenied else tableTest s tg z l := by
  simp only [accessTests, is]

theorem accessTests_font {s : State} {n lv st tb dn sb : Nat} {k : FontKind} {hy : Bool} {nm : Name} (level : Nat)
    (is : descAt s n = some (.font k lv st tb dn sb hy nm)) :
    accessTests s n level = if lv < level then .fontDenied else tableTest s n none none := by
  simp only [accessTests, is]

/-- The tests 1 to 4 never wait, so that for a proof they are the whole check. -/
theorem accessTests_eq (s : State) (n level : Nat) : accessTests s n level = accessCheck s n level false := by
  rw [accessCheck]
  cases accessTests s n level <;> rfl

theorem gateReaches_iff {s : State} {f level : Nat} :
    gateReaches s f level = true ↔ ∃ m lw z l nw, descAt s m = some (.gate lw f z l nw) ∧ level ≤ lw := by
  unfold gateReaches
  rw [List.any_eq_true]
  constructor
  · rintro ⟨m, -, reaches⟩
    split at reaches
    · rename_i lw target z l nw is
      obtain ⟨rfl, allowed⟩ := of_decide_eq_true reaches
      exact ⟨m, lw, z, l, nw, is, allowed⟩
    · cases reaches
  · rintro ⟨m, lw, z, l, nw, is, allowed⟩
    obtain ⟨k, rfl, -⟩ := descAt_some is
    refine ⟨k.val, List.mem_range.2 k.isLt, ?_⟩
    simp only [is]
    exact decide_eq_true ⟨trivial, allowed⟩

theorem lineStartCheck_font {s : State} {n lv st tb dn sb : Nat} {k : FontKind} {hy : Bool} {nm : Name} (level : Nat)
    (due : Bool) (is : descAt s n = some (.font k lv st tb dn sb hy nm)) :
    lineStartCheck s n level due =
      if level ≤ lv ∨ gateReaches s n level = true then mountTest s due (tableTest s n none none) else .fontDenied := by
  simp only [lineStartCheck, is]

theorem lineStartCheck_notFont {s : State} {n : Nat} (level : Nat) (due : Bool)
    (notFont : ¬ ∃ k lv st tb dn sb hy nm, descAt s n = some (.font k lv st tb dn sb hy nm)) :
    lineStartCheck s n level due = .fontRange := by
  unfold lineStartCheck
  split
  · exact absurd ⟨_, _, _, _, _, _, _, _, ‹_›⟩ notFont
  · rfl

/-! ## PROBE (R82) -/

theorem probeReason_eq (s : State) (n level : Nat) :
    probeReason s n level =
      if accessTests s n level = .fontRange then 1 else if accessTests s n level = .fontDenied then 2 else 0 := by
  unfold probeReason
  cases accessTests s n level <;> simp

/-- The data of PROBE for a number whose resolved descriptor stands. -/
theorem probeData_resolved {s : State} {n r level : Nat} {x : Descriptor} (number : n < 64)
    (resolved : resolvedNumber s n = r) (is : descAt s r = some x) :
    probeData s n level =
      [if probeReason s n level = 0 then 1 else 0, byteOf (probeReason s n level), byteOf r, byteOf x.code] ++
        x.name.toList ++ [byteOf (posNumber (mountedAt s r)), 0] := by
  simp only [probeData, if_pos number, resolved, nameAt, is]

/-- Settles O23: the tests in order, and the bytes of the reply. -/
theorem probeReports : Obligations.ProbeReports := by
  refine ⟨?probe, ?checks, ?lookups, fun lv st tb dn sb tg hy z l nm => ⟨rfl, rfl, rfl⟩⟩
  case probe =>
    intro d n s takes allowed answer tests reason usable
    have handled : answer = .next (s.answered d 0x16 .ok (probeData s n.toNat s.settings.deskLevel[d])) :=
      exec_handled _ d ⟨0x16, [n]⟩ s rfl rfl takes allowed
    have why : probeReason s n.toNat s.settings.deskLevel[d] = reason := probeReason_eq _ _ _
    refine ⟨fun above => ?_, fun x is notGate => ?_, fun lv tg z l nm x is target => ?_⟩
    · have range : tests = .fontRange := accessTests_unnamed _ (.inl above)
      have one : reason = 1 := if_pos range
      rw [handled, probeData, if_neg (by omega), why, one]
      rfl
    · obtain ⟨m, number, -⟩ := descAt_some is
      have resolved : resolvedNumber s n.toNat = n.toNat := by
        unfold resolvedNumber
        split
        · rename_i gate
          exact absurd (Option.some.inj (is.symm.trans gate)) (notGate _ _ _ _ _)
        · rfl
      have spelt : byteOf n.toNat = n := BitVec.eq_of_toNat_eq (by rw [toNat_byteOf, Nat.mod_eq_of_lt n.isLt])
      rw [handled, probeData_resolved (by omega) resolved is, why, spelt]
    · obtain ⟨m, number, -⟩ := descAt_some is
      have resolved : resolvedNumber s n.toNat = tg := by simp only [resolvedNumber, is]
      rw [handled, probeData_resolved (by omega) resolved target, why]
  case checks =>
    intro n level due s isFont loaded stands reaches
    have reached (f : Nat) (z l : Option Nat) : reaches (mountTest s due (tableTest s f z l)) f z l :=
      mountTest_reaches s f z l due
    refine ⟨fun unnamed => ?_, fun lv tg z l nm is => ⟨fun denied => ?_, fun allowed => ?_⟩,
      fun k lv st tb dn sb hy nm is => ⟨fun denied => ?_, fun allowed => ?_, fun denied notGated => ?_, fun allowed => ?_⟩,
      lineStartCheck_notFont level due⟩
    · rw [accessCheck, accessTests_unnamed level unnamed]
      rfl
    · rw [accessCheck, accessTests_gate level is, if_pos denied]
      rfl
    · rw [accessCheck, accessTests_gate level is, if_neg (Nat.not_lt.2 allowed)]
      exact reached _ _ _
    · rw [accessCheck, accessTests_font level is, if_pos denied]
      rfl
    · rw [accessCheck, accessTests_font level is, if_neg (Nat.not_lt.2 allowed)]
      exact reached _ _ _
    · rw [lineStartCheck_font level due is, if_neg]
      rintro (allowed | gated)
      · omega
      · exact notGated (gateReaches_iff.1 gated)
    · rw [lineStartCheck_font level due is, if_pos (allowed.imp_right gateReaches_iff.2)]
      exact reached _ _ _
  case lookups =>
    intro s n t level p
    exact ⟨fun m is => is ▸ descAt_of_lt s m, descAt_of_ge s, fun k is => is ▸ tableAt_of_lt s k, accessTests_eq s n level,
      font_eq_some, mountedAt_none, fun once => mountedAt_some once, rfl, rfl⟩

/-! ## Strips classified (R86) -/

/-- The font of a strip is the first number whose descriptor holds the code. -/
theorem fontOfStrip_eq (s : State) (c : Nat) :
    fontOfStrip s c = (List.range 64).find? fun n => decide ((descAt s n).bind Descriptor.strip = some c) := by
  unfold fontOfStrip
  congr 1
  funext n
  split
  · rename_i is
    rw [is]
    simp [Descriptor.strip]
  · rename_i notFont
    refine (decide_eq_false fun strip => ?_).symm
    obtain ⟨x, is, strip⟩ := Option.bind_eq_some_iff.1 strip
    obtain ⟨k, lv, tb, dn, sb, hy, nm, rfl⟩ := strip_eq_some.1 strip
    exact notFont _ _ _ _ _ _ _ _ is

theorem fontOfStrip_none {s : State} {c : Nat} : fontOfStrip s c = none ↔ ∀ n : Fin 64, s.dir.desc[n].strip ≠ some c := by
  rw [fontOfStrip_eq, List.find?_eq_none]
  constructor
  · intro none n strip
    refine none n.val (List.mem_range.2 n.isLt) (decide_eq_true ?_)
    rw [descAt_of_lt]
    exact strip
  · intro none n _ holds
    obtain ⟨x, is, strip⟩ := Option.bind_eq_some_iff.1 (of_decide_eq_true holds)
    obtain ⟨m, -, rfl⟩ := descAt_some is
    exact none m strip

theorem strip_of_fontOfStrip {s : State} {c f : Nat} (h : fontOfStrip s c = some f) :
    ∃ m : Fin 64, m.val = f ∧ s.dir.desc[m].strip = some c := by
  rw [fontOfStrip_eq] at h
  have holds := List.find?_some h
  obtain ⟨x, is, strip⟩ := Option.bind_eq_some_iff.1 (of_decide_eq_true holds)
  obtain ⟨m, number, rfl⟩ := descAt_some is
  exact ⟨m, number, strip⟩

theorem fontOfStrip_some {s : State} (distinct : StripsDistinct s) {c : Nat} (n : Fin 64) :
    fontOfStrip s c = some n.val ↔ s.dir.desc[n].strip = some c := by
  constructor
  · intro h
    obtain ⟨m, number, strip⟩ := strip_of_fontOfStrip h
    rwa [← Fin.ext number]
  · intro strip
    obtain ⟨f, h⟩ := Option.ne_none_iff_exists'.1 fun none => fontOfStrip_none.1 none n strip
    obtain ⟨m, rfl, other⟩ := strip_of_fontOfStrip h
    have same : m = n := by
      by_contra apart
      exact distinct m n apart c other strip
    rw [h, same]

/-- Some other position stands MOUNTED with the font. -/
theorem mountedElsewhere_iff (s : State) (p : Pos) (f : Nat) :
    (allPositions.any fun r => decide (r ≠ p) && decide (s.mount.pos[r].font = some f)) = true ↔
      ∃ r : Pos, r ≠ p ∧ s.mount.pos[r].font = some f := by
  have all : ∀ r : Pos, r ∈ allPositions := by decide
  simp [List.any_eq_true, all]

theorem classifyStrip_unknown {s : State} {c : Nat} (p : Pos) (none : fontOfStrip s c = none) :
    classifyStrip p c s = s.modPos p fun q => { q with st := .unknown c, lastUse := 0 } := by
  simp only [classifyStrip, none]

theorem classifyStrip_duplicate {s : State} {p : Pos} {c f : Nat} (found : fontOfStrip s c = some f)
    (elsewhere : ∃ r : Pos, r ≠ p ∧ s.mount.pos[r].font = some f) :
    classifyStrip p c s = s.modPos p fun q => { q with st := .duplicate c, lastUse := 0 } := by
  simp only [classifyStrip, found, if_pos ((mountedElsewhere_iff s p f).2 elsewhere)]

theorem classifyStrip_mounted {s : State} {p : Pos} {c f : Nat} (found : fontOfStrip s c = some f)
    (nowhere : ∀ r : Pos, r ≠ p → s.mount.pos[r].font ≠ some f) :
    classifyStrip p c s =
      releaseWaiters f (s.modPos p fun q => { q with st := .mounted f c, lastUse := s.mount.flashSeq }) := by
  have not : ¬ (allPositions.any fun r => decide (r ≠ p) && decide (s.mount.pos[r].font = some f)) = true := by
    rw [mountedElsewhere_iff]
    rintro ⟨r, other, stands⟩
    exact nowhere r other stands
  simp only [classifyStrip, found, if_neg not]

/-- Settles O26: a strip by its code's font and where that font stands. -/
theorem stripClassified : Obligations.StripClassified :=
  ⟨fun p _ _ => ⟨classifyStrip_unknown p, fun _ found => ⟨classifyStrip_duplicate found, classifyStrip_mounted found⟩⟩,
    fun _ _ => ⟨fontOfStrip_none, fun distinct n => fontOfStrip_some distinct n⟩, fun _ _ _ => rfl⟩

end Sys2Proof.Proofs

/-! PROOFS. The directory and the width tables written (05): DIR-WRITE (O24), WIDTH-WRITE (O25). -/

namespace Sys2Proof.Proofs

open Sys2Proof.Machine

/-! ## What the waiters change -/

/-- Jobs waiting get requests: their lists and the links change, nothing else. -/
theorem promoteWaiting_frame (n : Nat) (s : State) :
    ∃ requests waiting links, promoteWaiting n s =
      { s with mount := { s.mount with requests := requests, waiting := waiting }, links := links } := by
  induction n generalizing s with
  | zero => exact ⟨_, _, _, rfl⟩
  | succ n ih =>
    have notices (f : Nat) (js : List JobId) (t : State) :
        ∃ links, js.foldl (fun t k => noticeMountWait f k t) t = { t with links := links } := by
      induction js generalizing t with
      | nil => exact ⟨_, rfl⟩
      | cons k rest ih =>
        obtain ⟨links, is⟩ := ih (noticeMountWait f k t)
        exact ⟨links, is⟩
    unfold promoteWaiting
    split
    · exact ⟨_, _, _, rfl⟩
    · split
      · exact ⟨_, _, _, rfl⟩
      · rename_i f _
        split
        · obtain ⟨links, noticed⟩ := notices f (s.mount.waiting.filter fun k => s.jobs[k].waitedFont = some f)
            { s with mount := { s.mount with
              requests := s.mount.requests ++ [⟨f, none, s.mount.waiting.filter fun k => s.jobs[k].waitedFont = some f⟩]
              waiting := s.mount.waiting.filter fun k => s.jobs[k].waitedFont ≠ some f } }
          dsimp only
          rw [noticed]
          obtain ⟨requests, waiting, links', is⟩ := ih _
          exact ⟨requests, waiting, links', is⟩
        · exact ⟨_, _, _, rfl⟩

/-- Jobs released: the requests, the waiting jobs, the jobs and the links change, nothing else. -/
theorem releaseWaiters_frame (f : Nat) (s : State) :
    ∃ requests waiting jobs links, releaseWaiters f s =
      { s with mount := { s.mount with requests := requests, waiting := waiting }, jobs := jobs, links := links } := by
  have requeued (js : List JobId) (t : State) :
      ∃ jobs, js.foldl (fun t j => requeueWaiter j t) t = { t with jobs := jobs } := by
    induction js generalizing t with
    | nil => exact ⟨_, rfl⟩
    | cons k rest ih =>
      obtain ⟨jobs, is⟩ := ih (requeueWaiter k t)
      exact ⟨jobs, is⟩
  obtain ⟨jobs, is⟩ := requeued (waitersFor f s) { s with mount := { s.mount with
    requests := s.mount.requests.filter fun r => r.font ≠ f
    waiting := s.mount.waiting.filter fun j => s.jobs[j].waitedFont ≠ some f } }
  obtain ⟨requests, waiting, links, released⟩ := promoteWaiting_frame Config.maxRequests
    { s with
      mount := { s.mount with
        requests := s.mount.requests.filter fun r => r.font ≠ f
        waiting := s.mount.waiting.filter fun j => s.jobs[j].waitedFont ≠ some f }
      jobs := jobs }
  refine ⟨requests, waiting, jobs, links, ?_⟩
  unfold releaseWaiters
  dsimp only
  rw [is, released]

theorem releaseWaiters_pos (f : Nat) (s : State) : (releaseWaiters f s).mount.pos = s.mount.pos := by
  obtain ⟨_, _, _, _, is⟩ := releaseWaiters_frame f s
  rw [is]

theorem releaseWaiters_flashSeq (f : Nat) (s : State) : (releaseWaiters f s).mount.flashSeq = s.mount.flashSeq := by
  obtain ⟨_, _, _, _, is⟩ := releaseWaiters_frame f s
  rw [is]

/-! ## The positions classified again (R88) -/

/-- The position holds a strip of a code that is not MOUNTED. -/
def HoldsUnmounted (s : State) (q : Pos) (c : Nat) : Prop :=
  s.mount.pos[q].st = .unknown c ∨ s.mount.pos[q].st = .duplicate c

/-- The font stands MOUNTED at some position. -/
def Stands (s : State) (f : Nat) : Prop := ∃ q : Pos, s.mount.pos[q].font = some f

/-- A strip of the font, not MOUNTED, stands at one of the first positions. -/
def StripBelow (s : State) (f n : Nat) : Prop :=
  ∃ q : Pos, q.val < n ∧ ∃ c, HoldsUnmounted s q c ∧ fontOfStrip s c = some f

theorem fontOfStrip_congr {s t : State} (same : t.dir = s.dir) (c : Nat) : fontOfStrip t c = fontOfStrip s c := by
  unfold fontOfStrip descAt
  rw [same]

/-- A position as it is classified again, by the positions before. -/
structure ClassifiedAgain (s : State) (p : Pos) (now : Position) : Prop where
  pins : now.pins = s.mount.pos[p].pins
  untouched : (∀ c, ¬ HoldsUnmounted s p c) → now = s.mount.pos[p]
  unknown : ∀ c, HoldsUnmounted s p c → fontOfStrip s c = none → now = { s.mount.pos[p] with st := .unknown c, lastUse := 0 }
  mounted : ∀ c f, HoldsUnmounted s p c → fontOfStrip s c = some f → ¬ Stands s f → ¬ StripBelow s f p.val →
    now = { s.mount.pos[p] with st := .mounted f c, lastUse := s.mount.flashSeq }
  duplicate : ∀ c f, HoldsUnmounted s p c → fontOfStrip s c = some f → Stands s f ∨ StripBelow s f p.val →
    now = { s.mount.pos[p] with st := .duplicate c, lastUse := 0 }

/-- The first `n` positions are classified again, the others stand. -/
structure Reclassified (s : State) (n : Nat) (t : State) : Prop where
  dir : t.dir = s.dir
  flashSeq : t.mount.flashSeq = s.mount.flashSeq
  done : ∀ q : Pos, q.val < n → ClassifiedAgain s q t.mount.pos[q]
  left : ∀ q : Pos, n ≤ q.val → t.mount.pos[q] = s.mount.pos[q]
  stands : ∀ f, Stands t f ↔ Stands s f ∨ StripBelow s f n

theorem HoldsUnmounted.code_eq {s : State} {q : Pos} {c e : Nat} (h : HoldsUnmounted s q c) (g : HoldsUnmounted s q e) :
    e = c := by
  rcases h with h | h <;> rcases g with g | g <;> rw [h] at g <;> simp_all

theorem HoldsUnmounted.font_eq {s : State} {q : Pos} {c : Nat} (h : HoldsUnmounted s q c) : s.mount.pos[q].font = none := by
  rcases h with h | h <;> simp only [Position.font, h]

theorem stripBelow_succ {s : State} {f : Nat} (p : Pos) :
    StripBelow s f (p.val + 1) ↔ StripBelow s f p.val ∨ ∃ c, HoldsUnmounted s p c ∧ fontOfStrip s c = some f := by
  constructor
  · rintro ⟨q, below, c, holds, found⟩
    rcases Nat.lt_succ_iff_lt_or_eq.1 below with earlier | here
    · exact .inl ⟨q, earlier, c, holds, found⟩
    · exact .inr ⟨c, Fin.ext here ▸ holds, found⟩
  · rintro (⟨q, below, rest⟩ | ⟨c, holds, found⟩)
    · exact ⟨q, by omega, rest⟩
    · exact ⟨p, by omega, c, holds, found⟩

/-- A strip that is classified again, with what its position becomes. -/
theorem Reclassified.place {s t u : State} {p : Pos} (h : Reclassified s p.val t) (now : Position) (c : Nat)
    (holds : HoldsUnmounted s p c) (pos : u.mount.pos = put t.mount.pos p now) (dir : u.dir = t.dir)
    (flashSeq : u.mount.flashSeq = t.mount.flashSeq) (classified : ClassifiedAgain s p now)
    (font : ∀ f, fontOfStrip s c = some f → Stands s f ∨ StripBelow s f p.val ∨ now.font = some f)
    (only : ∀ f, now.font = some f → fontOfStrip s c = some f) : Reclassified s (p.val + 1) u where
  dir := dir.trans h.dir
  flashSeq := flashSeq.trans h.flashSeq
  done q below := by
    rw [pos, put_entry]
    rcases Nat.lt_succ_iff_lt_or_eq.1 below with earlier | here
    · rw [if_neg fun e : q = p => Nat.lt_irrefl _ (e ▸ earlier)]
      exact h.done q earlier
    · obtain rfl : q = p := Fin.ext here
      rw [if_pos rfl]
      exact classified
  left q above := by
    rw [pos, put_other _ _ _ _ fun e : p = q => by subst e; omega]
    exact h.left q (by omega)
  stands f := by
    rw [stripBelow_succ, ← or_assoc, ← h.stands f]
    have here : t.mount.pos[p].font = none := by rw [h.left p le_rfl, holds.font_eq]
    constructor
    · rintro ⟨q, stands⟩
      rw [pos, put_entry] at stands
      split at stands
      · exact .inr ⟨c, holds, only f stands⟩
      · exact .inl ⟨q, stands⟩
    · rintro (⟨q, stands⟩ | ⟨e, holds', found⟩)
      · refine ⟨q, ?_⟩
        rw [pos, put_other _ _ _ _ fun e : p = q => by subst e; rw [here] at stands; cases stands]
        exact stands
      · rw [holds.code_eq holds'] at found
        have already : Stands t f → Stands u f := by
          rintro ⟨q, stands⟩
          refine ⟨q, ?_⟩
          rw [pos, put_other _ _ _ _ fun e : p = q => by subst e; rw [here] at stands; cases stands]
          exact stands
        rcases font f found with before | before | now
        · exact already ((h.stands f).2 (.inl before))
        · exact already ((h.stands f).2 (.inr before))
        · exact ⟨p, by rw [pos, put_same]; exact now⟩

theorem Reclassified.classify {s t : State} {p : Pos} (h : Reclassified s p.val t) {c : Nat} (holds : HoldsUnmounted s p c) :
    Reclassified s (p.val + 1) (classifyStrip p c t) := by
  have here : t.mount.pos[p] = s.mount.pos[p] := h.left p le_rfl
  have absurdCode {P : Prop} {e : Nat} (other : HoldsUnmounted s p e) (differs : ¬ e = c) : P :=
    absurd (holds.code_eq other) differs
  cases found : fontOfStrip s c with
  | none =>
    rw [classifyStrip_unknown p ((fontOfStrip_congr h.dir c).trans found)]
    refine h.place _ c holds rfl rfl rfl ?_ (fun f is => ?_) fun f is => ?_
    · rw [here]
      refine ⟨rfl, fun none => absurd holds (none c), fun e other _ => by rw [holds.code_eq other], ?_, ?_⟩
      all_goals
        intro e f other is
        rw [holds.code_eq other, found] at is
        cases is
    · rw [found] at is
      cases is
    · cases is
  | some f =>
    have found' : fontOfStrip t c = some f := (fontOfStrip_congr h.dir c).trans found
    by_cases stands : Stands s f ∨ StripBelow s f p.val
    · have elsewhere : ∃ r : Pos, r ≠ p ∧ t.mount.pos[r].font = some f := by
        obtain ⟨r, mounted⟩ := (h.stands f).2 stands
        refine ⟨r, fun e => ?_, mounted⟩
        rw [e, here, holds.font_eq] at mounted
        cases mounted
      rw [classifyStrip_duplicate found' elsewhere]
      refine h.place _ c holds rfl rfl rfl ?_ (fun g is => ?_) fun g is => ?_
      · rw [here]
        refine ⟨rfl, fun none => absurd holds (none c), fun e other is => ?_, fun e g other is alone first => ?_,
          fun e g other _ _ => by rw [holds.code_eq other]⟩
        · rw [holds.code_eq other, found] at is
          cases is
        · rw [holds.code_eq other, found, Option.some.injEq] at is
          subst is
          exact absurd stands (not_or.2 ⟨alone, first⟩)
      · rw [found, Option.some.injEq] at is
        subst is
        exact stands.imp_right .inl
      · cases is
    · have nowhere (r : Pos) (_ : r ≠ p) : t.mount.pos[r].font ≠ some f := fun mounted =>
        stands ((h.stands f).1 ⟨r, mounted⟩)
      rw [classifyStrip_mounted found' nowhere]
      refine h.place { t.mount.pos[p] with st := .mounted f c, lastUse := t.mount.flashSeq } c holds
        (releaseWaiters_pos _ _) (keepsDir (releaseWaiters_kept _ _)) (releaseWaiters_flashSeq _ _) ?_
        (fun g is => ?_) fun g is => ?_
      · rw [here, h.flashSeq]
        refine ⟨rfl, fun none => absurd holds (none c), fun e other is => ?_, fun e g other is _ _ => ?_,
          fun e g other is before => ?_⟩
        all_goals rw [holds.code_eq other, found] at is
        · cases is
        · rw [holds.code_eq other, Option.some.inj is]
        · exact absurd (Option.some.inj is ▸ before) stands
      · rw [← is, found]
        exact .inr (.inr rfl)
      · rw [found, ← is]
        rfl

theorem Reclassified.step {s t : State} {p : Pos} (h : Reclassified s p.val t) :
    Reclassified s (p.val + 1) (reclassifyAt t p) := by
  have here : t.mount.pos[p] = s.mount.pos[p] := h.left p le_rfl
  unfold reclassifyAt
  rw [here]
  split
  · exact h.classify (.inl ‹_›)
  · exact h.classify (.inr ‹_›)
  · rename_i notUnknown notDuplicate
    have free (c : Nat) : ¬ HoldsUnmounted s p c := fun holds => holds.elim (notUnknown c) (notDuplicate c)
    refine ⟨h.dir, h.flashSeq, fun q below => ?_, fun q above => h.left q (by omega), fun f => ?_⟩
    · rcases Nat.lt_succ_iff_lt_or_eq.1 below with earlier | same
      · exact h.done q earlier
      · obtain rfl : q = p := Fin.ext same
        rw [here]
        exact ⟨rfl, fun _ => rfl, fun c holds => absurd holds (free c), fun c f holds => absurd holds (free c),
          fun c f holds => absurd holds (free c)⟩
    · rw [h.stands f, stripBelow_succ]
      exact or_congr_right (or_iff_left fun ⟨c, holds, _⟩ => free c holds).symm

/-- The six positions in order. -/
theorem reclassified (s : State) : Reclassified s 6 (reclassify s) := by
  have start : Reclassified s (0 : Pos).val s :=
    ⟨rfl, rfl, fun q below => absurd below (Nat.not_lt_zero _), fun _ _ => rfl,
      fun f => (or_iff_left fun ⟨q, below, _⟩ => absurd below (Nat.not_lt_zero _)).symm⟩
  have one : Reclassified s (1 : Pos).val (reclassifyAt s 0) := start.step
  have two : Reclassified s (2 : Pos).val (reclassifyAt _ 1) := one.step
  have three : Reclassified s (3 : Pos).val (reclassifyAt _ 2) := two.step
  have four : Reclassified s (4 : Pos).val (reclassifyAt _ 3) := three.step
  have five : Reclassified s (5 : Pos).val (reclassifyAt _ 4) := four.step
  have six : Reclassified s 6 (reclassifyAt _ 5) := five.step
  simpa only [reclassify, allPositions, List.foldl_cons, List.foldl_nil] using six

end Sys2Proof.Proofs

/-! PROOFS. The requests that write the directory: DIR-WRITE (O24) and WIDTH-WRITE (O25). -/

namespace Sys2Proof.Proofs

open Sys2Proof.Machine

/-! ## DIR-WRITE (R83) -/

theorem savingSettings_iff (s : State) : savingSettings s = true ↔ ∃ m, s.serial.save = some (.settings m) := by
  unfold savingSettings
  split
  · rename_i m is
    simp [is]
  · rename_i other
    simp only [Bool.false_eq_true, false_iff, not_exists]
    exact other

section

variable {d : Desk} {n : Byte} {rest : List Byte} {x : Descriptor} {s : State} (coded : dirForm rest = some x)
include coded

theorem requestDirWrite_busy (saving : savingSettings s = true) :
    requestDirWrite d (n :: rest) s = s.reply d 0x30 .busy [] := by
  simp only [requestDirWrite, coded, saving, if_true]
  rfl

theorem requestDirWrite_above (free : savingSettings s = false) (above : 63 < n.toNat) :
    requestDirWrite d (n :: rest) s = s.reply d 0x30 .badValue [] := by
  simp only [requestDirWrite, coded, free, Bool.false_eq_true, if_false, dif_neg (show ¬ n.toNat < 64 by omega)]
  rfl

theorem requestDirWrite_refused {m : Fin 64} {c : ReplyCode} (free : savingSettings s = false) (number : n.toNat = m.val)
    (check : dirCheck s m x = some c) : requestDirWrite d (n :: rest) s = s.reply d 0x30 c [] := by
  have below : n.toNat < 64 := number ▸ m.isLt
  have same : (⟨n.toNat, below⟩ : Fin 64) = m := Fin.ext number
  simp only [requestDirWrite, coded, free, Bool.false_eq_true, if_false, dif_pos below, same, check]
  rfl

theorem requestDirWrite_taken {m : Fin 64} (free : savingSettings s = false) (number : n.toNat = m.val)
    (check : dirCheck s m x = none) :
    requestDirWrite d (n :: rest) s = (settle s.store.freeCount (replaceDescriptor m x s)).reply d 0x30 .ok [] := by
  have below : n.toNat < 64 := number ▸ m.isLt
  have same : (⟨n.toNat, below⟩ : Fin 64) = m := Fin.ext number
  simp only [requestDirWrite, coded, free, Bool.false_eq_true, if_false, dif_pos below, same, check]

/-- A descriptor out of range is refused whatever the number. -/
theorem requestDirWrite_outOfRange (free : savingSettings s = false) (bad : x.inRange = false) :
    requestDirWrite d (n :: rest) s = s.reply d 0x30 .badValue [] := by
  by_cases above : 63 < n.toNat
  · exact requestDirWrite_above coded free above
  · refine requestDirWrite_refused coded (m := ⟨n.toNat, by omega⟩) free rfl ?_
    simp only [dirCheck, bad, Bool.not_false, if_true]

end

theorem dirCheck_stripTaken {s : State} {n : Fin 64} {x : Descriptor} (taken : stripTaken s n x = true) :
    dirCheck s n x = some .badValue := by
  by_cases range : x.inRange = true <;> simp [dirCheck, range, taken]

theorem dirCheck_mounted {s : State} {n : Fin 64} {x : Descriptor} (range : x.inRange = true)
    (free : stripTaken s n x = false) (font : s.dir.desc[n].strip ≠ none) (mounted : isMounted s n.val = true) :
    dirCheck s n x = some .inUse := by
  have isFont : s.dir.desc[n].strip.isSome = true := Option.isSome_iff_ne_none.2 font
  simp only [dirCheck, range, free, mountedFont, isFont, mounted, Bool.not_true, Bool.and_true, Bool.false_eq_true,
    if_false, if_true]

theorem mountedFont_false {s : State} {n : Fin 64} (free : s.dir.desc[n].strip = none ∨ isMounted s n.val = false) :
    mountedFont s n = false := by
  rcases free with noFont | unmounted
  · rw [mountedFont, noFont]
    rfl
  · simp [mountedFont, unmounted]

theorem font_inRange (k : FontKind) (lv st tb dn sb : Byte) (hy : Bool) (nm : Name) :
    (Descriptor.font k lv.toNat st.toNat tb.toNat dn.toNat sb.toNat hy nm).inRange = true ↔
      lv.toNat ≤ 3 ∧ 1 ≤ st.toNat ∧ tb.toNat ≤ 23 ∧ 64 ≤ dn.toNat ∧ dn.toNat ≤ 192 ∧ 0x21 ≤ sb.toNat ∧ sb.toNat ≤ 0x7F := by
  have byte := st.isLt
  simp only [Descriptor.inRange, decide_eq_true_eq]
  omega

theorem gate_inRange (lv tg z l1 l2 : Byte) (nm : Name) :
    (Descriptor.gate lv.toNat tg.toNat (if z.toNat = 0 then none else some z.toNat)
      (if nat2 l1 l2 = 65535 then none else some (nat2 l1 l2)) nm).inRange = true ↔
      lv.toNat ≤ 3 ∧ tg.toNat ≤ 63 ∧ (z.toNat = 0 ∨ (6 ≤ z.toNat ∧ z.toNat ≤ 48)) ∧
        (nat2 l1 l2 = 65535 ∨ nat2 l1 l2 ≤ 999) := by
  simp only [Descriptor.inRange, Bool.and_eq_true, decide_eq_true_eq]
  by_cases size : z.toNat = 0 <;> by_cases leading : nat2 l1 l2 = 65535 <;> simp [size, leading, and_assoc]

theorem dirForm_font (k : FontKind) (lv st tb dn sb hy a b c e f g h i : Byte) (flag : hy.toNat ≤ 1) :
    dirForm (byteOf (kindCode k) :: [lv, st, tb, dn, sb, hy, a, b, c, e, f, g, h, i]) =
      some (.font k lv.toNat st.toNat tb.toNat dn.toNat sb.toNat (decide (hy.toNat = 1)) #v[a, b, c, e, f, g, h, i]) := by
  have fields : fontForm k [lv, st, tb, dn, sb, hy, a, b, c, e, f, g, h, i] =
      some (.font k lv.toNat st.toNat tb.toNat dn.toNat sb.toNat (decide (hy.toNat = 1)) #v[a, b, c, e, f, g, h, i]) :=
    if_pos flag
  rw [← fields]
  cases k <;> rfl

theorem dirForm_gate (lv tg z l1 l2 a b c e f g h i : Byte) :
    dirForm (4 :: [lv, tg, z, l1, l2, a, b, c, e, f, g, h, i]) =
      some (.gate lv.toNat tg.toNat (if z.toNat = 0 then none else some z.toNat)
        (if nat2 l1 l2 = 65535 then none else some (nat2 l1 l2)) #v[a, b, c, e, f, g, h, i]) := by
  have zero : z = 0 ↔ z.toNat = 0 := ⟨fun is => is ▸ rfl, fun is => BitVec.eq_of_toNat_eq is⟩
  simp only [← zero]
  rfl

section

variable {d : Desk} {n : Byte} {s : State} (takes : Takes d s) (allowed : Allowed d 0x30 s)
include takes allowed

theorem exec_dirWriteFont (k : FontKind) (lv st tb dn sb hy a b c e f g h i : Byte) :
    exec (.dirWriteFont d n k [lv, st, tb, dn, sb, hy, a, b, c, e, f, g, h, i]) s =
      .next (requestDirWrite d (n :: byteOf (kindCode k) :: [lv, st, tb, dn, sb, hy, a, b, c, e, f, g, h, i])
        (restartSilence d s)) :=
  exec_handled (.dirWriteFont d n k [lv, st, tb, dn, sb, hy, a, b, c, e, f, g, h, i]) d
    ⟨0x30, n :: byteOf (kindCode k) :: [lv, st, tb, dn, sb, hy, a, b, c, e, f, g, h, i]⟩ s rfl rfl takes allowed

theorem exec_dirWriteGate (lv tg z l1 l2 a b c e f g h i : Byte) :
    exec (.dirWriteGate d n [lv, tg, z, l1, l2, a, b, c, e, f, g, h, i]) s =
      .next (requestDirWrite d (n :: 4 :: [lv, tg, z, l1, l2, a, b, c, e, f, g, h, i]) (restartSilence d s)) :=
  exec_handled (.dirWriteGate d n [lv, tg, z, l1, l2, a, b, c, e, f, g, h, i]) d
    ⟨0x30, n :: 4 :: [lv, tg, z, l1, l2, a, b, c, e, f, g, h, i]⟩ s rfl rfl takes allowed

theorem exec_dirWriteClear :
    exec (.dirWriteClear d n []) s = .next (requestDirWrite d (n :: [0]) (restartSilence d s)) :=
  exec_handled (.dirWriteClear d n []) d ⟨0x30, n :: [0]⟩ s rfl rfl takes allowed

end

theorem dirForm_clear : dirForm [0] = some (.empty Config.noName) := rfl

theorem stripTaken_font {s : State} {n : Fin 64} {k : FontKind} {lv st tb dn sb : Nat} {hy : Bool} {nm : Name} :
    stripTaken s n (.font k lv st tb dn sb hy nm) = true ↔ ∃ o : Fin 64, o ≠ n ∧ s.dir.desc[o].strip = some st := by
  show stripHeld s.dir.desc n st = true ↔ _
  simp [stripHeld]

/-- Settles O24: DIR-WRITE's checks in order, what it replaces, and the positions classified again in order. -/
theorem dirWriteReplaces : Obligations.DirWriteReplaces := by
  refine ⟨?taken, ?refused, ?again, fun s n => ⟨isMounted_iff, savingSettings_iff s⟩⟩
  case taken =>
    intro d n s takes allowed idle unmounted written
    have free : savingSettings (restartSilence d s) = false := by
      rw [Bool.eq_false_iff, ne_eq, savingSettings_iff]
      rintro ⟨m, is⟩
      exact idle m is
    have number : (byteOf n.val).toNat = n.val := by
      have := n.isLt
      rw [toNat_byteOf]
      omega
    have check (x : Descriptor) (range : x.inRange = true) (strip : stripTaken (restartSilence d s) n x = false) :
        dirCheck (restartSilence d s) n x = none :=
      (dirCheck_none _ n x).2 ⟨range, strip, mountedFont_false (s := restartSilence d s) unmounted⟩
    refine ⟨fun k lv st tb dn sb hy a b c e f g h i level strip table low high first last flag alone => ?_,
      fun lv tg z l1 l2 a b c e f g h i level target size leading => ?_, ?_⟩
    · have range := (font_inRange k lv st tb dn sb (decide (hy.toNat = 1)) #v[a, b, c, e, f, g, h, i]).2
        ⟨level, strip, table, low, high, first, last⟩
      rw [exec_dirWriteFont takes allowed, requestDirWrite_taken (dirForm_font k lv st tb dn sb hy a b c e f g h i flag)
        free number (check _ range _)]
      · rfl
      · rw [Bool.eq_false_iff, ne_eq, stripTaken_font]
        rintro ⟨o, other, held⟩
        exact alone o other held
    · have range := (gate_inRange lv tg z l1 l2 #v[a, b, c, e, f, g, h, i]).2 ⟨level, target, size, leading⟩
      rw [exec_dirWriteGate takes allowed, requestDirWrite_taken (dirForm_gate lv tg z l1 l2 a b c e f g h i) free number
        (check _ range rfl)]
      rfl
    · rw [exec_dirWriteClear takes allowed, requestDirWrite_taken dirForm_clear free number (check _ rfl rfl)]
      rfl
  case refused =>
    intro d n k lv st tb dn sb hy tg z l1 l2 a b c e f g h i s takes allowed flag font gate clear refused fontRange gateRange
    have fontForm := dirForm_font k lv st tb dn sb hy a b c e f g h i flag
    have gateForm := dirForm_gate lv tg z l1 l2 a b c e f g h i
    have fontIs : font = .next (requestDirWrite d _ (restartSilence d s)) :=
      exec_dirWriteFont takes allowed k lv st tb dn sb hy a b c e f g h i
    have gateIs : gate = .next (requestDirWrite d _ (restartSilence d s)) :=
      exec_dirWriteGate takes allowed lv tg z l1 l2 a b c e f g h i
    have clearIs : clear = .next (requestDirWrite d _ (restartSilence d s)) := exec_dirWriteClear takes allowed
    rw [fontIs, gateIs, clearIs]
    refine ⟨fun saving => ?_, fun free => ?_⟩
    · have saving : savingSettings (restartSilence d s) = true := saving
      exact ⟨congrArg _ (requestDirWrite_busy fontForm saving), congrArg _ (requestDirWrite_busy gateForm saving),
        congrArg _ (requestDirWrite_busy dirForm_clear saving)⟩
    · have free : savingSettings (restartSilence d s) = false := free
      refine ⟨fun above => ⟨congrArg _ (requestDirWrite_above fontForm free above),
          congrArg _ (requestDirWrite_above gateForm free above), congrArg _ (requestDirWrite_above dirForm_clear free above)⟩,
        fun bad => congrArg _ (requestDirWrite_outOfRange fontForm free ?_),
        fun bad => congrArg _ (requestDirWrite_outOfRange gateForm free ?_), fun m number => ?_⟩
      · rwa [Bool.eq_false_iff, ne_eq, font_inRange]
      · rwa [Bool.eq_false_iff, ne_eq, gate_inRange]
      · intro held
        refine ⟨fun taken => congrArg _ (requestDirWrite_refused fontForm free number
          (dirCheck_stripTaken (stripTaken_font.2 taken))), fun isFont mounted => ?_⟩
        refine ⟨fun range notHeld => ?_, ?_, fun range => ?_⟩
        · refine congrArg _ (requestDirWrite_refused fontForm free number
            (dirCheck_mounted ((font_inRange k lv st tb dn sb _ _).2 range) ?_ isFont mounted))
          rw [Bool.eq_false_iff, ne_eq, stripTaken_font]
          exact notHeld
        · exact congrArg _ (requestDirWrite_refused dirForm_clear free number (dirCheck_mounted rfl rfl isFont mounted))
        · exact congrArg _ (requestDirWrite_refused gateForm free number
            (dirCheck_mounted ((gate_inRange lv tg z l1 l2 _).2 range) rfl isFont mounted))
  case again =>
    intro s p t holds stands before
    have done : ClassifiedAgain s p t.mount.pos[p] := (reclassified s).done p p.isLt
    clear_value t
    exact ⟨done.pins, done.untouched, fun c held => ⟨done.unknown c held, fun f found =>
      ⟨fun alone first => done.mounted c f held found alone first, done.duplicate c f held found⟩⟩⟩

/-! ## WIDTH-WRITE (R84) -/

/-- The run's entries take the widths, every other entry stays. -/
theorem writeWidths_get (ws : List Byte) (i : Nat) (v : Vector Nat 96) (k : Fin 96) :
    (writeWidths i ws v)[k] = if i ≤ k.val ∧ k.val < i + ws.length then (ws.getD (k.val - i) 0).toNat else v[k] := by
  induction ws generalizing i v with
  | nil =>
    rw [if_neg (by simp only [List.length_nil]; omega)]
    rfl
  | cons w rest ih =>
    rw [writeWidths, ih, List.length_cons]
    by_cases here : k.val = i
    · have inside : i < 96 := here ▸ k.isLt
      rw [if_neg (by omega), if_pos (by omega), dif_pos inside, show k.val - i = 0 by omega]
      simp [here]
    · have stands : (if h : i < 96 then v.set i w.toNat h else v)[k] = v[k] := by
        split
        · simp [Ne.symm here]
        · rfl
      by_cases within : i + 1 ≤ k.val ∧ k.val < i + 1 + rest.length
      · rw [if_pos within, if_pos (by omega), show k.val - i = (k.val - (i + 1)) + 1 by omega]
        rfl
      · rw [if_neg within, if_neg (by omega), stands]

theorem tableMounted_iff (s : State) (t : Nat) :
    tableMounted s t = true ↔
      ∃ (p : Pos) (f : Nat), s.mount.pos[p].font = some f ∧
        ∃ k lv st dn sb hy nm, descAt s f = some (.font k lv st t dn sb hy nm) := by
  unfold tableMounted
  rw [List.any_eq_true]
  constructor
  · rintro ⟨p, -, uses⟩
    split at uses
    · rename_i f mounted
      split at uses
      · rename_i k lv st table dn sb hy nm is
        obtain rfl : table = t := of_decide_eq_true uses
        exact ⟨p, f, mounted, k, lv, st, dn, sb, hy, nm, is⟩
      · cases uses
    · cases uses
  · rintro ⟨p, f, mounted, k, lv, st, dn, sb, hy, nm, is⟩
    exact ⟨p, List.mem_finRange p, by simp only [mounted, is]; exact decide_eq_true trivial⟩

section

variable {d : Desk} {t first : Byte} {ws : List Byte} {s : State} (length : 1 ≤ ws.length ∧ ws.length ≤ 64)
  (code : 0x20 ≤ first.toNat ∧ first.toNat ≤ 0x7F)

theorem exec_widthWrite (takes : Takes d s) (allowed : Allowed d 0x31 s) (short : ws.length ≤ 64) :
    exec (.widthWrite d (t :: first :: ws)) s = .next (requestWidthWrite d (t :: first :: ws) (restartSilence d s)) := by
  have wellFormed : payloadFits 0 (t :: first :: ws) = true := by
    simp only [payloadFits, List.length_cons, decide_eq_true_eq]
    omega
  exact exec_handled (.widthWrite d (t :: first :: ws)) d ⟨0x31, t :: first :: ws⟩ s rfl wellFormed takes allowed

include length code

theorem requestWidthWrite_busy (saving : savingSettings s = true) :
    requestWidthWrite d (t :: first :: ws) s = s.reply d 0x31 .busy [] := by
  simp only [requestWidthWrite, length, code, and_self, if_true, saving]
  rfl

theorem requestWidthWrite_above (free : savingSettings s = false) (above : 23 < t.toNat) :
    requestWidthWrite d (t :: first :: ws) s = s.reply d 0x31 .badValue [] := by
  simp only [requestWidthWrite, length, code, and_self, if_true, free, Bool.false_eq_true, if_false,
    dif_neg (show ¬ t.toNat < 24 by omega)]
  rfl

/-- The checks after the table's number (R84). -/
theorem requestWidthWrite_below (free : savingSettings s = false) (k : Fin 24) (number : t.toNat = k.val) :
    requestWidthWrite d (t :: first :: ws) s =
      if (∃ w ∈ ws, 96 < w.toNat) ∨ 0x80 < first.toNat + ws.length then s.reply d 0x31 .badValue []
      else if tableMounted s k.val = true ∧ s.dir.tables[k].loaded = true then s.reply d 0x31 .inUse []
      else (writeTable k first.toNat ws s).reply d 0x31 .ok [] := by
  have below : t.toNat < 24 := number ▸ k.isLt
  obtain rfl : (⟨t.toNat, below⟩ : Fin 24) = k := Fin.ext number
  simp only [requestWidthWrite, length, code, and_self, if_true, free, Bool.false_eq_true, if_false, dif_pos below,
    List.any_eq_true, decide_eq_true_eq, Bool.and_eq_true]
  rfl

end

/-- Settles O25: WIDTH-WRITE's checks in order, and the entries of its run. -/
theorem widthWriteTaken : Obligations.WidthWriteTaken := by
  refine ⟨?taken, ?refused, tableMounted_iff⟩
  case taken =>
    intro d t first ws s takes allowed free least most low high widths unused
    have number : (byteOf t.val).toNat = t.val := by
      have := t.isLt
      rw [toNat_byteOf]
      omega
    refine ⟨writeWidths (first.toNat - 32) ws s.dir.tables[t].widths, ?_, fun i => writeWidths_get _ _ _ _⟩
    have notPast : ¬ ((∃ w ∈ ws, 96 < w.toNat) ∨ 0x80 < first.toNat + ws.length) := by
      rintro (⟨w, hw, wide⟩ | past)
      · exact absurd wide (Nat.not_lt.2 (widths w hw))
      · omega
    have notUsed : ¬ (tableMounted (restartSilence d s) t.val = true ∧ (restartSilence d s).dir.tables[t].loaded = true) := by
      rintro ⟨mounted, loaded⟩
      rcases unused with no | no
      · exact Bool.false_ne_true (no.symm.trans mounted)
      · exact Bool.false_ne_true (no.symm.trans loaded)
    rw [exec_widthWrite takes allowed most,
      requestWidthWrite_below ⟨least, most⟩ ⟨low, by omega⟩ (s := restartSilence d s) free t number, if_neg notPast,
      if_neg notUsed]
    rfl
  case refused =>
    intro d t first ws s takes allowed least most low high answer past
    have handled : answer = .next (requestWidthWrite d (t :: first :: ws) (restartSilence d s)) :=
      exec_widthWrite takes allowed most
    refine ⟨fun saving => ?_, fun free => ⟨fun bad => ?_, fun k number notPast mounted loaded => ?_⟩⟩
    · rw [handled, requestWidthWrite_busy ⟨least, most⟩ ⟨low, high⟩ (s := restartSilence d s) saving]
      rfl
    · rw [handled]
      by_cases above : 23 < t.toNat
      · rw [requestWidthWrite_above ⟨least, most⟩ ⟨low, high⟩ (s := restartSilence d s) free above]
        rfl
      · rw [requestWidthWrite_below ⟨least, most⟩ ⟨low, high⟩ (s := restartSilence d s) free ⟨t.toNat, by omega⟩ rfl,
          if_pos (bad.resolve_left above)]
        rfl
    · rw [handled, requestWidthWrite_below ⟨least, most⟩ ⟨low, high⟩ (s := restartSilence d s) free k number,
        if_neg notPast, if_pos ⟨mounted, loaded⟩]
      rfl

end Sys2Proof.Proofs

/-! PROOFS. The requests answered from the state and the requests that write settings: QUERY-JOB (O21), TEST (O22),
TRIM-WRITE (O30), SETTING-WRITE (O31), SAVE (O32), NOTICE-MASK (O34), QUERY-MACHINE (O35). -/

namespace Sys2Proof.Proofs

open Sys2Proof.Machine

/-! ## QUERY-JOB (R39) -/

theorem excBits_eq (x : ExcSet) : x.bits =
    (if x.l then 1 else 0) + (if x.o then 2 else 0) + (if x.h then 4 else 0) + (if x.n then 8 else 0) +
      (if x.m then 16 else 0) := by
  obtain ⟨l, o, h, n, m⟩ := x
  cases l <;> cases o <;> cases h <;> cases n <;> cases m <;> rfl

theorem stickyByte_eq (r : Job) : r.stickyByte = r.sticky.bits + if r.reverseClamped then 32 else 0 := by
  rw [Job.stickyByte]
  cases r.reverseClamped <;> rfl

/-- Settles O21: QUERY-JOB of a number and of a record. -/
theorem queryJobReports : Obligations.QueryJobReports := by
  refine ⟨fun d n s takes allowed => ?_, rfl, rfl, rfl, rfl, rfl, rfl, excBits_eq⟩
  intro answer
  have handled : answer = .next (requestQueryJob d [n] (restartSilence d s)) :=
    exec_handled _ d ⟨0x17, [n]⟩ s rfl rfl takes allowed
  refine ⟨fun above => ?_, fun j number => ?_⟩
  · rw [handled]
    simp only [requestQueryJob, (jobOf_none n).2 above]
    rfl
  · intro r
    rw [handled]
    refine ⟨fun free => ?_, fun used => ?_⟩
    · simp only [requestQueryJob, (jobOf_some n j).2 number, if_pos (show (restartSilence d s).jobs[j].state = .free from free)]
      rfl
    · simp only [requestQueryJob, (jobOf_some n j).2 number,
        if_neg (show ¬ (restartSilence d s).jobs[j].state = .free from used)]
      have data : jobData r = [byteOf r.state.code, byteOf r.owner.val] ++ be2 r.tag.toNat ++
          [byteOf (r.mode.code + 4 * r.phase.code), byteOf r.cls.code] ++
          be2 r.composed ++ be2 r.exposed ++ be2 r.delivered ++ be2 r.proofed ++ be2 r.proofLost ++
          [byteOf (r.sticky.bits + if r.reverseClamped then 32 else 0),
            byteOf ((r.held.map fun h => h.kind.code).getD 0)] ++
          be2 ((r.held.map (·.line)).getD 0) ++ [byteOf (r.waitedFont.getD 255), byteOf r.reason.code] := by
        rw [jobData, stickyByte_eq]
        cases r.held <;> rfl
      rw [← data]
      rfl

/-! ## TEST (R30, R77) -/

section

variable {d : Desk} {b : Byte} {k : TestKind} {s : State} (coded : testOf b.toNat = some k)
include coded

theorem requestTest_refused {c : ReplyCode} (check : testCheck d k s = some c) :
    requestTest d [b] s = s.reply d 0x37 c [] := by
  simp only [requestTest, coded, check]
  rfl

theorem requestTest_taken {j : JobId} (check : testCheck d k s = none) (free : LowestFree j s) :
    requestTest d [b] s =
      (trySelect (enterTail j (s.modJob j fun _ => testJob d k s))).reply d 0x37 .ok [byteOf j.val] := by
  simp only [requestTest, coded, check, (freeRecord_some j s).2 free]

end

theorem testCheck_eq (d : Desk) (k : TestKind) (s : State) (mounted : k = .print ∨ mountedFonts s ≠ []) :
    testCheck d k s = recordLimit d s := if_neg fun h => mounted.elim h.1 fun some => some h.2

theorem testCheck_unmounted (d : Desk) (k : TestKind) (s : State) (notPrint : k ≠ .print) (none : mountedFonts s = []) :
    testCheck d k s = some .badState := if_pos ⟨notPrint, none⟩

/-- The decimal of a number of up to four digits. -/
theorem decimal_eq (n : Nat) (fits : n < 10000) :
    decimal n =
      if n < 10 then [byteOf (48 + n % 10)]
      else if n < 100 then [byteOf (48 + n / 10 % 10), byteOf (48 + n % 10)]
      else if n < 1000 then [byteOf (48 + n / 100 % 10), byteOf (48 + n / 10 % 10), byteOf (48 + n % 10)]
      else [byteOf (48 + n / 1000 % 10), byteOf (48 + n / 100 % 10), byteOf (48 + n / 10 % 10), byteOf (48 + n % 10)] := by
  have hundreds : n / 10 / 10 = n / 100 := Nat.div_div_eq_div_mul n 10 10
  have thousands : n / 100 / 10 = n / 1000 := Nat.div_div_eq_div_mul n 100 10
  by_cases one : n < 10
  · simp [decimal, decimalDigits, one]
  · by_cases two : n < 100
    · simp [decimal, decimalDigits, one, two, show n / 10 < 10 by omega]
    · by_cases three : n < 1000
      · simp [decimal, decimalDigits, one, two, three, show ¬ n / 10 < 10 by omega, hundreds, show n / 100 < 10 by omega]
      · simp [decimal, decimalDigits, one, two, three, show ¬ n / 10 < 10 by omega, hundreds, thousands,
          show ¬ n / 100 < 10 by omega, show n / 1000 < 10 by omega]

/-- One glyph more of a run, as long as the text goes on. -/
def runGlyph (s : State) (j : Job) : Progress → Progress
  | .go c => glyphByte s j c.advanceInRun 0x5F
  | .stop r => .stop r

theorem runGlyph_stopped (s : State) (j : Job) (n : Nat) (r : Result) : (runGlyph s j)^[n] (.stop r) = .stop r := by
  induction n with
  | zero => rfl
  | succ n ih => exact ih

theorem glyphRun_eq (s : State) (j : Job) (n : Nat) (b : Build) : glyphRun s j n b = (runGlyph s j)^[n] (.go b) := by
  induction n generalizing b with
  | zero => rfl
  | succ n ih =>
    rw [Function.iterate_succ_apply, runGlyph, glyphRun]
    cases glyphByte s j b.advanceInRun 0x5F with
    | go b1 => exact ih b1
    | stop r => exact (runGlyph_stopped s j n r).symm

/-- A run's first glyph is read as any byte, each further one as one glyph more. -/
theorem readToken_run (s : State) (j : Job) (b : Build) (f : Nat) :
    readToken s j b (.ruleRun f) =
      (runGlyph s j)^[ruleCount s b.ctx.fmt f - 1] (glyphByte s j b.advance 0x5F) := by
  rw [readToken]
  cases glyphByte s j b.advance 0x5F with
  | go b1 => exact glyphRun_eq s j _ b1
  | stop r => exact (runGlyph_stopped s j _ r).symm

theorem fontWidth_notFont {s : State} {f : Nat} (c : Byte)
    (notFont : ∀ k lv st tb dn sb hy nm, descAt s f ≠ some (.font k lv st tb dn sb hy nm)) : fontWidth s f c = 0 := by
  unfold fontWidth
  split
  · exact absurd ‹_› (notFont _ _ _ _ _ _ _ _)
  · rfl

/-- Settles O22: TEST's checks in order, the pattern's bytes, and the reading of a run. -/
theorem testMakesJob : Obligations.TestMakesJob := by
  refine ⟨?taken, ?refused, ?text, ?run, ?other⟩
  case taken =>
    intro d j s takes allowed owned free made
    have limit : recordLimit d (restartSilence d s) = none := recordLimit_none owned free
    refine ⟨fun f fs mounted => ?_, ?_⟩
    · have mounted : mountedFonts (restartSilence d s) = f :: fs := mounted
      have some : mountedFonts (restartSilence d s) ≠ [] := by rw [mounted]; exact List.cons_ne_nil _ _
      have pattern (k : TestKind) : testCheck d k (restartSilence d s) = none := by
        rw [testCheck_eq d k _ (.inr some), limit]
      refine ⟨?_, ?_⟩
      · refine (exec_handled (.testRule d []) d ⟨0x37, [0]⟩ s rfl rfl takes allowed).trans (congrArg _ ?_)
        refine (requestTest_taken (b := 0) (k := .rule) rfl (pattern _) free).trans ?_
        simp only [testJob, testPattern, mounted]
        rfl
      · refine (exec_handled (.testAlign d []) d ⟨0x37, [1]⟩ s rfl rfl takes allowed).trans (congrArg _ ?_)
        refine (requestTest_taken (b := 1) (k := .align) rfl (pattern _) free).trans ?_
        simp only [testJob, testPattern, mounted]
        rfl
    · refine (exec_handled (.testPrint d []) d ⟨0x37, [2]⟩ s rfl rfl takes allowed).trans (congrArg _ ?_)
      exact requestTest_taken (b := 2) (k := .print) rfl ((testCheck_eq d _ _ (.inl rfl)).trans limit) free
  case refused =>
    intro d s takes allowed refused limits
    have rule : exec (.testRule d []) s = .next (requestTest d [0] (restartSilence d s)) :=
      exec_handled (.testRule d []) d ⟨0x37, [0]⟩ s rfl rfl takes allowed
    have align : exec (.testAlign d []) s = .next (requestTest d [1] (restartSilence d s)) :=
      exec_handled (.testAlign d []) d ⟨0x37, [1]⟩ s rfl rfl takes allowed
    have print : exec (.testPrint d []) s = .next (requestTest d [2] (restartSilence d s)) :=
      exec_handled (.testPrint d []) d ⟨0x37, [2]⟩ s rfl rfl takes allowed
    have limited {c : Instr} {b : Byte} {k : TestKind} (coded : testOf b.toNat = some k)
        (is : exec c s = .next (requestTest d [b] (restartSilence d s)))
        (mounted : k = .print ∨ mountedFonts (restartSilence d s) ≠ []) : limits c := by
      refine ⟨fun owned => ?_, fun owned full => ?_⟩
      · rw [is, requestTest_refused coded ((testCheck_eq d k _ mounted).trans
          (recordLimit_limit (s := restartSilence d s) owned))]
        rfl
      · rw [is, requestTest_refused coded ((testCheck_eq d k _ mounted).trans
          (recordLimit_full (s := restartSilence d s) owned full))]
        rfl
    refine ⟨fun none => ⟨?_, ?_⟩, fun some => ⟨limited rfl rule (.inr some), limited rfl align (.inr some)⟩,
      limited rfl print (.inl rfl)⟩
    · rw [rule, requestTest_refused rfl (testCheck_unmounted d .rule (restartSilence d s) TestKind.noConfusion none)]
      rfl
    · rw [align, requestTest_refused rfl (testCheck_unmounted d .align (restartSilence d s) TestKind.noConfusion none)]
      rfl
  case text =>
    intro s r f fs fit fits digit digits esc sizes
    have spelt (n : Nat) (small : n < 10000) : decimal n = digits n := decimal_eq n small
    have sizesSmall : ∀ z ∈ sizes, z < 100 := by decide
    refine ⟨fun kind pattern => ?_, fun kind pattern => ?_, fun kind => ?_, fun kind => ?_⟩
    · have lines : ∀ z ∈ sizes, escCommand 0x46 (decimal f) ++ escCommand 0x53 (decimal z) ++
          escCommand 0x4C (decimal (12 * z)) ++ [.ruleRun f, .byte 0x0A] =
          esc 0x46 (digits f) ++ esc 0x53 (digits z) ++ esc 0x4C (digits (12 * z)) ++ [.ruleRun f, .byte 0x0A] := by
        intro z hz
        have small := sizesSmall z hz
        rw [spelt f (by omega), spelt z (by omega), spelt (12 * z) (by omega)]
        rfl
      have head : patternHead 1 = esc 0x58 [] ++ esc 0x41 (digits 1) := by
        rw [patternHead, spelt 1 (by omega)]
        rfl
      simp only [jobText, kind, pattern]
      rw [rulePattern, head]
      exact congrArg _ (List.flatMap_congr lines)
    · have lines : ∀ g ∈ fs, escCommand 0x46 (decimal g) ++ [.byte 0x48, .byte 0x20, .byte 0x48, .byte 0x0B] =
          esc 0x46 (digits g) ++ [.byte 0x48, .byte 0x20, .byte 0x48, .byte 0x0B] := by
        intro g hg
        have small := fits g hg
        rw [spelt g (by omega)]
        rfl
      have head : patternHead 0 = esc 0x58 [] ++ esc 0x41 (digits 0) := by
        rw [patternHead, spelt 0 (by omega)]
        rfl
      simp only [jobText, kind, pattern]
      rw [alignPattern, head]
      exact congrArg _ (List.flatMap_congr lines)
    · have text : jobText s r = printPattern := by simp only [jobText, kind]
      rw [text, printPattern, patternHead, spelt 1 (by omega), spelt 7200 (by omega), spelt 6 (by omega),
        List.range'_eq_map_range, List.map_map]
      rfl
    · simp only [jobText, kind]
  case run =>
    intro s j b f fmt u count further
    have step : further = runGlyph s j := by
      funext p
      cases p <;> rfl
    have number : ruleCount s b.ctx.fmt f = count := rfl
    rw [readToken_run, number, step, List.foldl_const, List.length_range]
    rfl
  case other =>
    intro s j b c f
    refine ⟨rfl, fun outside low high => ?_, fontWidth_notFont c⟩
    rw [readByte_of_text s j b c outside]
    simp only [textByte, if_neg (show ¬ c.toNat = 0x0A by omega), if_neg (show ¬ c.toNat = 0x0B by omega),
      if_neg (show ¬ c.toNat = 0x1B by omega), if_neg (show ¬ c.toNat = 0x1E by omega),
      if_neg (show ¬ c.toNat = 0x1F by omega), if_neg (show ¬ c.toNat = 0x20 by omega), if_pos (And.intro low high)]
    rfl

end Sys2Proof.Proofs

/-! PROOFS. The requests that write settings and report the machine: TRIM-WRITE (O30), SETTING-WRITE (O31), SAVE (O32),
NOTICE-MASK and the notices (O34), QUERY-MACHINE (O35). -/

namespace Sys2Proof.Proofs

open Sys2Proof.Machine

/-! ## TRIM-WRITE (R29) -/

section

variable {d : Desk} {i v1 v2 : Byte} {s : State}

theorem requestTrimWrite_busy (kind : Byte) (known : kind.toNat ≤ 2) (saving : savingSettings s = true) :
    requestTrimWrite d [kind, i, v1, v2] s = s.reply d 0x32 .busy [] := by
  simp only [requestTrimWrite, if_neg (Nat.not_lt.2 known), saving, if_true]
  rfl

variable (free : savingSettings s = false)
include free

theorem requestTrimWrite_lens : requestTrimWrite d [0, i, v1, v2] s = writeLensTrim d i.toNat (int2 v1 v2) s := by
  simp only [requestTrimWrite, free, Bool.false_eq_true, if_false]
  rfl

theorem requestTrimWrite_baseline :
    requestTrimWrite d [1, i, v1, v2] s = writeBaselineTrim d i.toNat (int2 v1 v2) s := by
  simp only [requestTrimWrite, free, Bool.false_eq_true, if_false]
  rfl

theorem requestTrimWrite_exposure :
    requestTrimWrite d [2, i, v1, v2] s = writeExposureBase d i.toNat (int2 v1 v2) s := by
  simp only [requestTrimWrite, free, Bool.false_eq_true, if_false]
  rfl

end

/-- Settles O30: each kind's index and range. -/
theorem trimWritesTaken : Obligations.TrimWritesTaken := by
  intro d i v1 v2 s takes allowed clamp taken w
  have lens : exec (.trimWriteLens d [i, v1, v2]) s = .next (requestTrimWrite d [0, i, v1, v2] (restartSilence d s)) :=
    exec_handled (.trimWriteLens d [i, v1, v2]) d ⟨0x32, [0, i, v1, v2]⟩ s rfl rfl takes allowed
  have baseline : exec (.trimWriteBaseline d [i, v1, v2]) s =
      .next (requestTrimWrite d [1, i, v1, v2] (restartSilence d s)) :=
    exec_handled (.trimWriteBaseline d [i, v1, v2]) d ⟨0x32, [1, i, v1, v2]⟩ s rfl rfl takes allowed
  have exposure : exec (.trimWriteExposureBase d [i, v1, v2]) s =
      .next (requestTrimWrite d [2, i, v1, v2] (restartSilence d s)) :=
    exec_handled (.trimWriteExposureBase d [i, v1, v2]) d ⟨0x32, [2, i, v1, v2]⟩ s rfl rfl takes allowed
  rw [lens, baseline, exposure]
  refine ⟨fun saving => ?_, fun free => ?_⟩
  · have saving : savingSettings (restartSilence d s) = true := saving
    exact ⟨congrArg _ (requestTrimWrite_busy 0 (by decide) saving), congrArg _ (requestTrimWrite_busy 1 (by decide) saving),
      congrArg _ (requestTrimWrite_busy 2 (by decide) saving)⟩
  · have free : savingSettings (restartSilence d s) = false := free
    rw [requestTrimWrite_lens free, requestTrimWrite_baseline free, requestTrimWrite_exposure free]
    refine ⟨fun k index => ?_, fun k index => ?_, fun outside => ?_, fun outside => ?_⟩
    · have inside : 1 ≤ i.toNat ∧ i.toNat ≤ 12 := by have := k.isLt; omega
      have at_ : i.toNat - 1 = k.val := by omega
      simp only [writeLensTrim, writeExposureBase, dif_pos inside, at_]
      exact ⟨rfl, rfl⟩
    · have inside : 1 ≤ i.toNat ∧ i.toNat ≤ 6 := by have := k.isLt; omega
      have at_ : i.toNat - 1 = k.val := by omega
      simp only [writeBaselineTrim, dif_pos inside, at_]
      rfl
    · have outside : ¬ (1 ≤ i.toNat ∧ i.toNat ≤ 12) := by omega
      exact ⟨congrArg _ (dif_neg outside), congrArg _ (dif_neg outside)⟩
    · have outside : ¬ (1 ≤ i.toNat ∧ i.toNat ≤ 6) := by omega
      exact congrArg _ (dif_neg outside)

/-! ## The settings by identifier (R184) -/

/-- The ranges of the settings, in the order of their identifiers. -/
def rangeList : List (Nat × Nat) :=
  [(0, 3), (0, 3), (0, 3), (0, 3), (1, 60), (0, 2047), (0, 2047), (0, 2047), (0, 2047), (0, 2047), (0, 2047), (1, 2048),
   (10, 1000), (0, 600), (0, 63), (6, 48), (0, 999), (720, 14400), (0, 14040), (0, 3), (0, 48), (0, 48), (0, 48), (0, 1),
   (1, 5), (2, 5), (0, 9), (0, 31), (0, 3), (100, 1000), (0, 7), (0, 255), (256, 1023), (1, 6), (0, 1023), (0, 1023),
   (720, 5760), (100, 1440), (100, 7200), (0, 7200), (1, 50)]

theorem settingRange_above (i : Nat) (above : 41 < i) : settingRange i = none := by
  obtain ⟨k, rfl⟩ : ∃ k, i = k + 42 := ⟨i - 42, by omega⟩
  rfl

theorem settingRange_eq (i : Nat) : settingRange i = if i = 0 then none else rangeList[i - 1]? := by
  by_cases above : 41 < i
  · rw [settingRange_above i above, if_neg (by omega),
      List.getElem?_eq_none (show rangeList.length ≤ i - 1 by show 41 ≤ i - 1; omega)]
  · have known : ∀ i : Fin 42, settingRange i.val = if i.val = 0 then none else rangeList[i.val - 1]? := by decide
    exact known ⟨i, by omega⟩

/-- The values of the settings, in the order of their identifiers. -/
def valueList (t : Settings) : List Nat :=
  [t.deskLevel[0], t.deskLevel[1], t.deskLevel[2], t.deskLevel[3], t.silence, t.storedMask[0].toNat,
   t.storedMask[1].toNat, t.storedMask[2].toNat, t.storedMask[3].toNat, t.fullReserve, t.low, t.high, t.holdTime,
   t.heldTimeout, t.house.font, t.house.size, t.house.leading, t.house.measure, t.house.indent, t.house.align.code,
   t.house.spMin, t.house.spNorm, t.house.spMax, t.house.hyphenation.toNat, t.house.minBefore, t.house.minAfter,
   t.house.ladder, t.house.mask.bits, t.house.rounding.code, t.confirmTimeout, t.retryLimit, t.soak, t.aref, t.avgK,
   t.weakThreshold, t.failThreshold, t.maxTake / 10, t.cutMargin, t.cutReserve, t.reverseLimit, t.lowThreshold]

theorem get_eq_valueList (t : Settings) (i : Nat) (known : i < 41) : t.get (i + 1) = (valueList t)[i] := by
  interval_cases i <;> rfl

theorem get_above (t : Settings) (i : Nat) (above : 41 < i) : t.get i = 0 := by
  obtain ⟨k, rfl⟩ : ∃ k, i = k + 42 := ⟨i - 42, by omega⟩
  rfl

theorem alignOf_code (n : Nat) (fits : n ≤ 3) : (alignOf n).code = n := by interval_cases n <;> rfl
theorem roundingOf_code (n : Nat) (fits : n ≤ 3) : (roundingOf n).code = n := by interval_cases n <;> rfl
theorem ofBits_bits (n : Nat) (fits : n ≤ 31) : (ExcSet.ofBits n).bits = n := by interval_cases n <;> decide
theorem flag_toNat (n : Nat) (fits : n ≤ 1) : (!decide (n = 0)).toNat = n := by interval_cases n <;> rfl

/-- The settings whose writes adjust no setting. -/
def plainSetting (i : Nat) : Bool := !([10, 11, 12, 16, 18, 19, 21, 22, 23, 38, 39].contains i)

/-- A write of such a setting changes its own value alone. -/
theorem valueList_set (i n : Nat) (t : Settings) (known : i < 41) (plain : plainSetting (i + 1) = true)
    (fits : n ≤ rangeList[i].2) : valueList (t.set (i + 1) n) = (valueList t).set i n := by
  interval_cases i
  all_goals
    simp only [rangeList, List.getElem_cons_zero, List.getElem_cons_succ] at fits
    simp [plainSetting] at plain
  all_goals
    simp [valueList, Settings.set, Format.setHouse, Format.withLeading, fits, alignOf_code, roundingOf_code, ofBits_bits,
      flag_toNat]
  all_goals omega

theorem settingRange_some {i lo hi : Nat} (range : settingRange i = some (lo, hi)) :
    ∃ k, k + 1 = i ∧ ∃ known : k < 41, rangeList[k] = (lo, hi) := by
  rw [settingRange_eq] at range
  split at range
  · cases range
  · obtain ⟨known, is⟩ := List.getElem?_eq_some_iff.1 range
    exact ⟨i - 1, by omega, known, is⟩

theorem get_set_plain {i lo hi n : Nat} (t : Settings) (range : settingRange i = some (lo, hi)) (fits : n ≤ hi)
    (plain : plainSetting i = true) (k : Nat) : (t.set i n).get k = if k = i then n else t.get k := by
  obtain ⟨j, rfl, known, is⟩ := settingRange_some range
  have fits : n ≤ rangeList[j].2 := by rw [is]; exact fits
  by_cases above : 41 < k
  · rw [get_above _ k above, get_above _ k above, if_neg (by omega)]
  · cases k with
    | zero => exact (if_neg (Ne.symm (Nat.succ_ne_zero j))).symm
    | succ k =>
      rw [get_eq_valueList _ k (by omega), get_eq_valueList _ k (by omega)]
      simp only [valueList_set j n t known plain fits, List.getElem_set]
      by_cases same : j = k
      · rw [if_pos same, if_pos (by omega)]
      · rw [if_neg same, if_neg (by omega)]
        rfl

theorem snapSize_eq (n : Nat) : snapSize n =
    if n < 7 then 6 else if n < 8 then 7 else if n < 9 then 8 else if n < 10 then 9 else if n < 12 then 10
    else if n < 14 then 12 else if n < 18 then 14 else if n < 24 then 18 else if n < 30 then 24
    else if n < 36 then 30 else if n < 48 then 36 else 48 := by
  by_cases largest : 48 ≤ n
  · have reached (z : Nat) (below : z ≤ 48) : z ≤ n := below.trans largest
    have passed (z : Nat) (below : z ≤ 48) : ¬ n < z := Nat.not_lt.2 (reached z below)
    simp [snapSize, Config.lensSizes, reached, passed]
  · have small : ∀ n : Fin 48, snapSize n.val =
        if n.val < 7 then 6 else if n.val < 8 then 7 else if n.val < 9 then 8 else if n.val < 10 then 9
        else if n.val < 12 then 10 else if n.val < 14 then 12 else if n.val < 18 then 14 else if n.val < 24 then 18
        else if n.val < 30 then 24 else if n.val < 36 then 30 else if n.val < 48 then 36 else 48 := by decide
    exact small ⟨n, by omega⟩

theorem flag_eq (b : Bool) : b.toNat = if b = true then 1 else 0 := by cases b <;> rfl

theorem alignment_code (a : Machine.Alignment) :
    a.code = if a = .justify then 0 else if a = .left then 1 else if a = .right then 2 else 3 := by cases a <;> rfl

theorem rounding_code (r : Machine.Rounding) :
    r.code = if r = .nearestEven then 0 else if r = .nearestUp then 1 else if r = .down then 2 else 3 := by
  cases r <;> rfl

/-- The decision after a write of FULL-RESERVE, LOW or HIGH (R51). -/
theorem afterSetting_eq (i : Nat) (s : State) :
    afterSetting i s =
      if i = 10 ∨ i = 11 ∨ i = 12 then
        if s.store.freeCount < s.settings.low then s.decideHold
        else if s.settings.high ≤ s.store.freeCount then s.decideResume
        else s
      else s := by
  have iff : (10 ≤ i ∧ i ≤ 12) ↔ (i = 10 ∨ i = 11 ∨ i = 12) := by omega
  simp only [afterSetting, iff, flowAfterWrite]

/-- Settles O31: the refusals, the table of ranges, the adjustments and the settings by identifier. -/
theorem settingWriteTaken : Obligations.SettingWriteTaken := by
  refine ⟨?write, settingRange_eq, ?adjust, ?plain, ?names⟩
  case write =>
    intro d i v1 v2 s takes allowed answer
    have handled : answer = .next (requestSettingWrite d [i, v1, v2] (restartSilence d s)) :=
      exec_handled _ d ⟨0x33, [i, v1, v2]⟩ s rfl rfl takes allowed
    rw [handled]
    refine ⟨fun saving => ?_, fun free => ⟨fun unknown => ?_, fun lo hi range => ?_⟩⟩
    · have saving : savingSettings (restartSilence d s) = true := saving
      simp only [requestSettingWrite, saving, if_true]
      rfl
    all_goals
      have free : savingSettings (restartSilence d s) = false := free
      simp only [requestSettingWrite, free, Bool.false_eq_true, if_false]
    · have none : settingRange i.toNat = none := by
        rcases unknown with zero | above
        · rw [zero]
          rfl
        · exact settingRange_above _ above
      simp only [none, Option.isNone_none, if_true]
      rfl
    · have written : (restartSilence d s).settings.write i.toNat (int2 v1 v2) =
          s.settings.set i.toNat (max (lo : Int) (min hi (int2 v1 v2))).toNat := by
        simp only [Settings.write, range]
        rfl
      simp only [range, Option.isNone_some, Bool.false_eq_true, if_false, written, afterSetting_eq]
      rfl
  case adjust =>
    intro n t h low lowSet lowKept size spaces
    have snapped : snapSize n = size := snapSize_eq n
    refine ⟨rfl, rfl, rfl, ?_, rfl, rfl, rfl, rfl, rfl, rfl, rfl, rfl⟩
    rw [← snapped]
    rfl
  case plain =>
    intro i lo hi n k t range _ fits notAdjusted
    have plain : plainSetting i = true := by simpa [plainSetting] using notAdjusted
    have value (k : Nat) := get_set_plain t range fits plain k
    exact ⟨(value i).trans (if_pos rfl), fun other => (value k).trans (if_neg other)⟩
  case names =>
    intro t h align rounding
    have aligned : h.align.code = align := alignment_code _
    have rounded : h.rounding.code = rounding := rounding_code _
    rw [← aligned, ← rounded, ← flag_eq]
    rfl

/-! ## SAVE (R186) -/

theorem regionValid_sum (bytes : List Byte) : regionValid (sum16 bytes) (~~~(sum16 bytes)) bytes = true := by
  simp [regionValid]

section

variable {d : Desk} {s : State} (takes : Takes d s) (allowed : Allowed d 0x34 s)
include takes allowed

theorem exec_saveSettings : exec (.saveSettings d []) s =
    .next (if s.serial.save.isSome then s.answered d 0x34 .busy []
      else (beginSaveSettings (restartSilence d s)).reply d 0x34 .ok []) :=
  exec_handled (.saveSettings d []) d ⟨0x34, [0]⟩ s rfl rfl takes allowed

theorem exec_saveDictionary : exec (.saveDictionary d []) s =
    .next (if s.serial.save.isSome then s.answered d 0x34 .busy []
      else (beginSaveDictionary (restartSilence d s)).reply d 0x34 .ok []) :=
  exec_handled (.saveDictionary d []) d ⟨0x34, [1]⟩ s rfl rfl takes allowed

end

theorem ofFn_succ_eq_map {α : Type} (n : Nat) (f : Nat → α) :
    (List.ofFn fun i : Fin n => f (i.val + 1)) = (List.range' 1 n).map f :=
  List.ext_getElem (by simp) fun i _ _ => by simp [Nat.add_comm]

/-- Settles O32: SAVE with and without a save in flight, and its end. -/
theorem saveTakenAndCompleted : Obligations.SaveTakenAndCompleted := by
  refine ⟨fun d s => ⟨fun takes allowed busy => ?_, fun takes allowed none => ?_, fun m saving => ?_, fun m saving => ?_⟩,
    fun s => ⟨?_, rfl, rfl, rfl, rfl⟩⟩
  · rw [exec_saveSettings takes allowed, exec_saveDictionary takes allowed, if_pos busy, if_pos busy]
    exact ⟨rfl, rfl⟩
  · have idle : ¬ s.serial.save.isSome = true := by simp [none]
    rw [exec_saveSettings takes allowed, exec_saveDictionary takes allowed, if_neg idle, if_neg idle]
    exact ⟨rfl, rfl⟩
  · refine ⟨⟨m, sum16 (Config.settingsBytes m), ~~~(sum16 (Config.settingsBytes m))⟩, ?_, rfl, regionValid_sum _⟩
    simp only [exec_saveComplete, endSave, saving]
  · refine ⟨⟨m, sum16 (Config.dictionaryBytes m), ~~~(sum16 (Config.dictionaryBytes m))⟩, ?_, rfl, regionValid_sum _⟩
    simp only [exec_saveComplete, endSave, saving]
  · have values : (settingsImage s).values.toList = List.ofFn fun i : Fin 41 => (s.settings.get (i.val + 1) : Int) :=
      Vector.toList_ofFn
    exact values.trans (ofFn_succ_eq_map 41 fun i => (s.settings.get i : Int))

/-! ## The notices (R37) -/

theorem maskOf_word2 (a b : Byte) : maskOf (word2 a b) = BitVec.ofNat 11 (a.toNat * 256 + b.toNat) := by
  apply BitVec.eq_of_toNat_eq
  simp only [maskOf, word2, nat2, BitVec.toNat_setWidth, BitVec.toNat_ofNat]
  omega

theorem setNotice_eq (flags : BitVec 11) (k : NoticeKind) : setNotice flags k = flags ||| (1#11 <<< k.bit) := by
  cases k <;> rfl

theorem notice_eq (k : NoticeKind) (job : Option JobId) (detail : Nat) (l : Link) :
    Link.notice k job detail l =
      if l.mask.getLsbD k.bit = true ∧ l.queue.length < 12 then
        { l with flags := setNotice l.flags k }.enqueue
          ⟨0x83, [byteOf (k.bit + 1), byteOf ((job.map fun j : JobId => j.val).getD 255)] ++ be2 detail⟩
      else { l with flags := setNotice l.flags k } := by
  simp only [Link.notice, noticeEnabled, Bool.and_eq_true, decide_eq_true_eq]
  cases job <;> rfl

theorem noticeAll_eq (k : NoticeKind) (detail : Nat) (s : State) :
    s.noticeAll k detail = { s with links := s.links.map (Link.notice k none detail) } := by
  have links : (s.noticeAll k detail).links = s.links.map (Link.notice k none detail) := by
    ext i hi
    rw [Vector.getElem_map]
    exact State.modLinks_get _ _ _ _
  rw [← links]
  rfl

/-- Settles O34: the mask of a link and what it lets a notice send. -/
theorem noticesRaisedByMask : Obligations.NoticesRaisedByMask := by
  refine ⟨?mask, ?notice, rfl, rfl, rfl, noticeAll_eq⟩
  case mask =>
    intro d a b s takes allowed mask
    have is : maskOf (word2 a b) = mask := maskOf_word2 a b
    refine (exec_handled (.noticeMask d [a, b]) d ⟨0x35, [a, b]⟩ s rfl rfl takes allowed).trans ?_
    rw [← is]
    rfl
  case notice =>
    intro k job detail l flagged
    have is : { l with flags := setNotice l.flags k } = flagged := by rw [setNotice_eq]
    rw [notice_eq, is]

/-! ## QUERY-MACHINE (R38) -/

theorem proofRecord_isSome (s : State) : (proofRecord s).isSome = s.buffer.any fun r => decide (r.proof = .busy) := by
  rw [proofRecord, List.isSome_find?]

theorem proofCode_eq (s : State) :
    proofCode s =
      if s.proof.enable = false then 0
      else if s.proof.printer = .paperOut then 3
      else if s.proof.printer = .fault then 4
      else if s.buffer.any (fun r => r.proof = .busy) then 2
      else 1 := by
  rw [proofCode, proofRecord_isSome]
  cases s.proof.enable <;> cases s.proof.printer <;> rfl

/-- Settles O35: the report, block by block. -/
theorem queryMachineReports : Obligations.QueryMachineReports := by
  refine ⟨?_, rfl, rfl⟩
  intro d s takes allowed remaining position proof
  have positions : (fun p : Pos => positionData s.mount.pos[p]) = fun p : Pos => position s.mount.pos[p] := by
    funext p
    rcases s.mount.pos[p] with ⟨st, pins, last⟩
    cases st <;> rfl
  have code : proofCode s = proof := proofCode_eq s
  have bad : (restartSilence d s).links[d].badFrames = s.links[d].badFrames := by simp [restartSilence]
  have flags : (restartSilence d s).links[d].flags = s.links[d].flags := by simp [restartSilence]
  refine (exec_handled (.queryMachine d []) d ⟨0x18, []⟩ s rfl rfl takes allowed).trans (congrArg _ ?_)
  have data : machineData d (restartSilence d s) =
      be2 s.store.freeCount ++ [byteOf (inUse s)] ++ (allPositions.flatMap fun p => positionData s.mount.pos[p]) ++
      [byteOf s.imaging.st.code, byteOf s.imaging.stop.code] ++ be3 s.film.remaining ++
      [byteOf s.film.take.length] ++ be2 s.film.takeLength ++ [byteOf (proofCode s)] ++
      be2 (restartSilence d s).links[d].badFrames ++ be2 (restartSilence d s).links[d].flags.toNat := rfl
  rw [bad, flags, positions, code] at data
  show (State.modLink d (fun l => { l with flags := 0 }) (restartSilence d s)).reply d 0x18 .ok
    (machineData d (restartSilence d s)) = _
  rw [data]
  rfl

end Sys2Proof.Proofs

/-! PROOFS. The exception dictionary (07): words, DICT-ADD (O28), DICT-DELETE and DICT-LOOKUP (for O29). -/

namespace Sys2Proof.Proofs

open Sys2Proof.Machine

/-! ## Words and break lists -/

theorem increasing_iff (l : List Nat) : increasing l = true ↔ l.Pairwise (· < ·) := by
  rw [← List.isChain_iff_pairwise]
  induction l with
  | nil => simp [increasing]
  | cons a rest ih =>
    cases rest with
    | nil => simp [increasing]
    | cons b rest => simp only [increasing, Bool.and_eq_true, decide_eq_true_eq, ih, List.isChain_cons_cons]

theorem isLetter_iff (c : Byte) :
    isLetter c = true ↔ (0x41 ≤ c.toNat ∧ c.toNat ≤ 0x5A) ∨ (0x61 ≤ c.toNat ∧ c.toNat ≤ 0x7A) := by
  simp only [isLetter, decide_eq_true_eq]

theorem validWord_iff (w : List Byte) :
    validWord w = true ↔ 2 ≤ w.length ∧ w.length ≤ 24 ∧ ∀ c ∈ w, isLetter c = true := by
  simp only [validWord, Bool.and_eq_true, decide_eq_true_eq, List.all_eq_true, and_assoc]

theorem validBreaks_iff (n : Nat) (bs : List Nat) :
    validBreaks n bs = true ↔ bs.length ≤ 12 ∧ bs.Pairwise (· < ·) ∧ ∀ b ∈ bs, 1 ≤ b ∧ b < n := by
  simp only [validBreaks, Bool.and_eq_true, decide_eq_true_eq, List.all_eq_true, increasing_iff, and_assoc]

theorem hashWord_lt (w : List Byte) : hashWord w < 256 := by
  rcases List.eq_nil_or_concat w with rfl | ⟨front, last, rfl⟩
  · exact Nat.zero_lt_succ _
  · rw [hashWord, List.concat_eq_append, List.foldl_append]
    exact Nat.mod_lt _ (by omega)

theorem bucketOf_val (w : List Byte) : (bucketOf w).val = hashWord w := Nat.mod_eq_of_lt (hashWord_lt w)

theorem hashWord_concat (w : List Byte) (c : Byte) : hashWord (w ++ [c]) = (hashWord w * 31 + letterNumber c) % 256 := by
  rw [hashWord, List.foldl_append]
  rfl

theorem lookupWord_isSome (d : Dictionary) (w : List Byte) :
    (lookupWord d w).isSome = true ↔ ∃ e ∈ d[bucketOf w], e.word = w := by
  simp [lookupWord]

theorem lookupWord_absent {d : Dictionary} {w : List Byte} (absent : ∀ e ∈ d[bucketOf w], e.word ≠ w) :
    lookupWord d w = none := by
  simpa [lookupWord] using absent

theorem dictPush_remove (e : DictEntry) (d : Dictionary) :
    dictPush e (dictRemove e.word d) =
      put d (bucketOf e.word) (e :: d[bucketOf e.word].filter fun x => decide (x.word ≠ e.word)) := by
  rw [dictPush, dictRemove, put_same, put_put]

theorem toList_eq_map {α : Type} {n : Nat} (v : Vector α n) : v.toList = (List.finRange n).map fun i => v[i] :=
  List.ext_getElem (by simp) (by simp)

theorem savingDictionary_iff (s : State) : savingDictionary s = true ↔ ∃ m, s.serial.save = some (.dictionary m) := by
  unfold savingDictionary
  split
  · rename_i m is
    simp [is]
  · rename_i other
    simp only [Bool.false_eq_true, false_iff, not_exists]
    exact other

/-! ## The payloads -/

theorem wordForm_eq (w rest : List Byte) (fits : w.length < 256) :
    wordForm (byteOf w.length :: (w ++ rest)) = some (w, rest) := by
  have length : (byteOf w.length).toNat = w.length := by rw [toNat_byteOf, Nat.mod_eq_of_lt fits]
  rw [wordForm, length, if_pos (by simp), List.take_left', List.drop_left']
  all_goals rfl

theorem addForm_eq (w : List Byte) (bs : List Nat) (fits : w.length < 256) (breaks : bs.length < 256)
    (bytes : ∀ b ∈ bs, b < 256) :
    addForm (byteOf w.length :: w ++ byteOf bs.length :: bs.map byteOf) = some (w, bs) := by
  have form := wordForm_eq w (byteOf bs.length :: bs.map byteOf) fits
  have length : (byteOf bs.length).toNat = (bs.map byteOf).length := by
    rw [toNat_byteOf, Nat.mod_eq_of_lt breaks, List.length_map]
  have back : (bs.map byteOf).map (·.toNat) = bs := by
    rw [List.map_map]
    refine (List.map_congr_left fun b hb => ?_).trans (List.map_id bs)
    exact (toNat_byteOf b).trans (Nat.mod_eq_of_lt (bytes b hb))
  rw [addForm, List.cons_append, form]
  simp only [length, if_true, back]

theorem oneWordForm_word (w : List Byte) (fits : w.length < 256) : oneWordForm (byteOf w.length :: w) = some w := by
  have form := wordForm_eq w [] fits
  rw [List.append_nil] at form
  simp only [oneWordForm, form]

/-! ## DICT-ADD (R130) -/

/-- DICT-ADD of a word and a break list, check by check. -/
theorem requestDictAdd_eq {d : Desk} {payload w : List Byte} {bs : List Nat} {s : State}
    (coded : addForm payload = some (w, bs)) :
    requestDictAdd d payload s =
      if savingDictionary s = true then s.reply d 0x20 .busy []
      else if ¬ (validWord w = true ∧ validBreaks w.length bs = true) then s.reply d 0x20 .badValue []
      else if (lookupWord s.dict (foldWord w)).isSome = true then
        addReply d 1 { s with dict := dictPush ⟨foldWord w, bs, d⟩ (dictRemove (foldWord w) s.dict) }
      else if 1024 ≤ dictCount s.dict then s.reply d 0x20 .full []
      else addReply d 0 { s with dict := dictPush ⟨foldWord w, bs, d⟩ s.dict } := by
  simp only [requestDictAdd, coded, Bool.not_eq_true', Bool.and_eq_false_iff, not_and, Bool.not_eq_true]
  by_cases word : validWord w = true
  · simp only [word, Bool.true_eq_false, false_or, true_implies]
    rfl
  · simp only [Bool.not_eq_true] at word
    simp only [word, true_or, Bool.false_eq_true, false_implies]
    rfl

/-- Settles O28: DICT-ADD's checks in order, and the words it is about. -/
theorem dictAddTaken : Obligations.DictAddTaken := by
  refine ⟨?add, isLetter_iff, fun w => ⟨validWord_iff w, fun _ => rfl, (bucketOf_val w).symm, fun c _ _ => ?_⟩, rfl,
    fun d => ?_, savingDictionary_iff⟩
  case add =>
    intro d w bs s takes allowed fits bytes answer word entry chain valid entered
    have wellFormed : payloadFits 0 (byteOf w.length :: w ++ byteOf bs.length :: bs.map byteOf) = true := by
      simp only [payloadFits, List.length_append, List.length_cons, List.length_map, decide_eq_true_eq]
      omega
    have handled : answer = .next (requestDictAdd d (byteOf w.length :: w ++ byteOf bs.length :: bs.map byteOf)
        (restartSilence d s)) :=
      exec_handled (.dictAdd d (byteOf w.length :: w ++ byteOf bs.length :: bs.map byteOf)) d ⟨0x20, _⟩ s rfl wellFormed
        takes allowed
    rw [handled, requestDictAdd_eq (addForm_eq w bs (by omega) (by omega) bytes)]
    have validIff : (validWord w = true ∧ validBreaks w.length bs = true) ↔ valid := by
      rw [validWord_iff, validBreaks_iff]
      simp only [valid, and_assoc]
    refine ⟨fun saving => ?_, fun free => ⟨fun bad => ?_, fun ok => ⟨fun found => ?_, fun absent =>
      ⟨fun full => ?_, fun room => ?_⟩⟩⟩⟩
    · rw [if_pos (show savingDictionary (restartSilence d s) = true from saving)]
      rfl
    all_goals
      have notSaving : ¬ savingDictionary (restartSilence d s) = true := by
        rw [show savingDictionary (restartSilence d s) = false from free]
        exact Bool.false_ne_true
      rw [if_neg notSaving]
    · rw [if_pos (fun h => bad (validIff.1 h))]
      rfl
    all_goals rw [if_neg (not_not.2 (validIff.2 ok))]
    · rw [if_pos (show (lookupWord (restartSilence d s).dict (foldWord w)).isSome = true from
        (lookupWord_isSome s.dict word).2 found)]
      have pushed := dictPush_remove entry s.dict
      show Host.Outcome.next (addReply d 1 { restartSilence d s with dict := dictPush entry (dictRemove word s.dict) }) = _
      rw [show dictPush entry (dictRemove word s.dict) = _ from pushed]
      rfl
    all_goals
      have none : ¬ (lookupWord (restartSilence d s).dict (foldWord w)).isSome = true := fun h =>
        have ⟨e, member, same⟩ := (lookupWord_isSome s.dict word).1 h
        absent e member same
      rw [if_neg none]
    · rw [if_pos (show 1024 ≤ dictCount (restartSilence d s).dict from full)]
      rfl
    · rw [if_neg (show ¬ 1024 ≤ dictCount (restartSilence d s).dict from Nat.not_le.2 room)]
      rfl
  · rw [bucketOf_val, bucketOf_val, hashWord_concat]
    rfl
  · rw [dictCount, toList_eq_map, List.map_map]
    rfl

end Sys2Proof.Proofs

/-! PROOFS. DICT-DELETE and DICT-LOOKUP, the break rules, the candidates of a word and the break offered (07, for O29). -/

namespace Sys2Proof.Proofs

open Sys2Proof.Machine

/-! ## DICT-DELETE and DICT-LOOKUP (R131, R132) -/

theorem requestDictDelete_eq {d : Desk} {payload w : List Byte} {s : State} (coded : oneWordForm payload = some w) :
    requestDictDelete d payload s =
      if savingDictionary s = true then s.reply d 0x21 .busy []
      else if validWord w = false then s.reply d 0x21 .badValue []
      else if (lookupWord s.dict (foldWord w)).isSome = true then
        { s with dict := dictRemove (foldWord w) s.dict }.reply d 0x21 .ok (be2 (dictCount (dictRemove (foldWord w) s.dict)))
      else s.reply d 0x21 .absent [] := by
  simp only [requestDictDelete, coded, Bool.not_eq_true']
  rfl

theorem requestDictLookup_eq {d : Desk} {payload w : List Byte} {s : State} (coded : oneWordForm payload = some w) :
    requestDictLookup d payload s =
      if validWord w = false then s.reply d 0x22 .badValue []
      else ((lookupWord s.dict (foldWord w)).elim (s.reply d 0x22 .absent []) fun e =>
        s.reply d 0x22 .ok (lookupData e)) := by
  simp only [requestDictLookup, coded, Bool.not_eq_true']
  cases lookupWord s.dict (foldWord w) <;> rfl

/-- An entry is the first of its word's chain that matches. -/
theorem lookupWord_first {d : Dictionary} {w : List Byte} {e : DictEntry} {older newer : List DictEntry}
    (chain : d[bucketOf w] = newer ++ e :: older) (same : e.word = w) (others : ∀ x ∈ newer, x.word ≠ w) :
    lookupWord d w = some e := by
  rw [lookupWord, chain, List.find?_append, List.find?_eq_none.2 (by simpa using others)]
  simp [same]

/-- One entry of a chain with distinct words leaves with its word. -/
theorem length_filter_word {l : List DictEntry} (once : (l.map (·.word)).Nodup) {e : DictEntry} (member : e ∈ l) :
    (l.filter fun x => decide (x.word ≠ e.word)).length + 1 = l.length := by
  induction l with
  | nil => cases member
  | cons x rest ih =>
    obtain ⟨new, rest_once⟩ := List.nodup_cons.1 once
    rcases List.mem_cons.1 member with rfl | member
    · have others : (rest.filter fun x => decide (x.word ≠ e.word)) = rest :=
        List.filter_eq_self.2 fun y hy => decide_eq_true fun same => new (List.mem_map.2 ⟨y, hy, same⟩)
      rw [List.filter_cons_of_neg (by simp), others, List.length_cons]
    · have other : x.word ≠ e.word := fun same => new (List.mem_map.2 ⟨e, member, same.symm⟩)
      rw [List.filter_cons_of_pos (by simpa using other), List.length_cons, List.length_cons, ih rest_once member]

theorem dictCount_dictRemove {s : State} (sound : DictionarySound s) {w : List Byte} {e : DictEntry}
    (member : e ∈ s.dict[bucketOf w]) (same : e.word = w) : dictCount (dictRemove w s.dict) + 1 = dictCount s.dict := by
  obtain ⟨-, chains⟩ := (dictionarySound_iff s).1 sound
  have count := dictCount_put s.dict (bucketOf w) (s.dict[bucketOf w].filter fun x => decide (x.word ≠ w))
  have one := length_filter_word (chains (bucketOf w)).2 member
  rw [same] at one
  unfold dictRemove
  omega

/-! ## The break rules (R122, R123) -/

theorem isVowel_iff (first : Bool) (b : Byte) :
    isVowel first b = true ↔
      b = 0x61 ∨ b = 0x65 ∨ b = 0x69 ∨ b = 0x6F ∨ b = 0x75 ∨ (b = 0x79 ∧ first = false) := by
  simp only [← BitVec.toNat_inj]
  unfold isVowel
  split <;> simp_all

theorem isDigraph_iff (a b : Byte) :
    isDigraph a b = true ↔
      (a, b) ∈ ([(0x63, 0x68), (0x63, 0x6B), (0x67, 0x68), (0x70, 0x68), (0x73, 0x68), (0x74, 0x68), (0x77, 0x68)] :
        List (Byte × Byte)) := by
  simp only [List.mem_cons, List.not_mem_nil, or_false, Prod.mk.injEq, ← BitVec.toNat_inj]
  unfold isDigraph
  split <;> simp_all

/-- Letter `k` of a word, numbered from 1, is a vowel (R122). -/
def VowelAt (w : List Byte) (k : Nat) : Prop :=
  w.getD (k - 1) 0 = 0x61 ∨ w.getD (k - 1) 0 = 0x65 ∨ w.getD (k - 1) 0 = 0x69 ∨ w.getD (k - 1) 0 = 0x6F ∨
    w.getD (k - 1) 0 = 0x75 ∨ (w.getD (k - 1) 0 = 0x79 ∧ k ≠ 1)

theorem vowelAt_iff (w : List Byte) (i : Nat) : VowelAt w (i + 1) ↔ (vowels w)[i]? = some true := by
  rw [vowels, List.getElem?_mapIdx, VowelAt, Nat.add_sub_cancel, List.getD_eq_getElem?_getD]
  cases w[i]? with
  | none => simp
  | some b => simp [isVowel_iff]

theorem not_vowelAt_iff {w : List Byte} {i : Nat} (within : i < w.length) :
    ¬ VowelAt w (i + 1) ↔ (vowels w)[i]? = some false := by
  rw [vowelAt_iff, vowels, List.getElem?_mapIdx, List.getElem?_eq_getElem within]
  simp

theorem vccvAt_iff (w : List Byte) (i : Nat) :
    vccvAt w i = true ↔ 2 ≤ i ∧ i + 2 ≤ w.length ∧ VowelAt w (i - 1) ∧ ¬ VowelAt w i ∧ ¬ VowelAt w (i + 1) ∧
      VowelAt w (i + 2) ∧ isDigraph (w.getD (i - 1) 0) (w.getD i 0) = false := by
  simp only [vccvAt, Bool.and_eq_true, decide_eq_true_eq, beq_iff_eq, Bool.not_eq_true', and_assoc]
  refine and_congr_right fun low => and_congr_right fun high => ?_
  obtain ⟨j, rfl⟩ : ∃ j, i = j + 2 := ⟨i - 2, by omega⟩
  show _ ↔ VowelAt w (j + 1) ∧ ¬ VowelAt w (j + 1 + 1) ∧ ¬ VowelAt w (j + 2 + 1) ∧ VowelAt w (j + 3 + 1) ∧ _
  rw [vowelAt_iff, not_vowelAt_iff (by omega), not_vowelAt_iff (by omega), vowelAt_iff]
  rfl

theorem suffixAt_iff (w : List Byte) (i : Nat) :
    suffixAt w i = true ↔ w.drop i ∈ suffixes ∧ ∃ k ∈ List.range' 1 i, VowelAt w k := by
  simp only [suffixAt, Bool.and_eq_true, List.contains_eq_mem, decide_eq_true_eq, List.any_eq_true, id,
    List.mem_range'_1]
  simp only [List.mem_iff_getElem?, List.getElem?_take, Option.ite_none_right_eq_some]
  refine and_congr_right fun _ => ⟨?_, ?_⟩
  · rintro ⟨v, ⟨k, below, at_⟩, rfl⟩
    exact ⟨k + 1, by omega, (vowelAt_iff w k).2 at_⟩
  · rintro ⟨k, within, vowel⟩
    obtain ⟨k, rfl⟩ : ∃ j, k = j + 1 := ⟨k - 1, by omega⟩
    exact ⟨true, ⟨k, by omega, (vowelAt_iff w k).1 vowel⟩, rfl⟩

/-- The rule positions: those of the two rules, in order (R123). -/
theorem mem_rulePositions (w : List Byte) (i : Nat) :
    i ∈ rulePositions w ↔ 1 ≤ i ∧ i < w.length ∧ (vccvAt w i = true ∨ suffixAt w i = true) := by
  simp only [rulePositions, List.mem_filter, List.mem_range'_1, Bool.or_eq_true, ← and_assoc]
  refine and_congr_left fun _ => ?_
  omega

/-! ## Items of a word -/

/-- The glyph that stands at a place of a word's items. -/
def glyphAt (is : List Item) (k : Nat) : Option Glyph :=
  (is[k]?).bind fun i => match i.piece with
    | .glyph g => some g
    | _ => none

theorem glyphAt_isSome (is : List Item) (k : Nat) :
    (glyphAt is k).isSome = true ↔ ∃ i, is[k]? = some i ∧ i.piece.isGlyph = true := by
  unfold glyphAt
  cases is[k]? with
  | none => simp
  | some i =>
    obtain ⟨piece, after⟩ := i
    cases piece <;> simp [Piece.isGlyph]

theorem glyphAt_lt {is : List Item} {k : Nat} (h : (glyphAt is k).isSome = true) : k < is.length := by
  obtain ⟨i, is, -⟩ := (glyphAt_isSome is k).1 h
  exact (List.getElem?_eq_some_iff.1 is).1

theorem glyphAt_take (is : List Item) (i k : Nat) : glyphAt (is.take i) k = if k < i then glyphAt is k else none := by
  unfold glyphAt
  rw [List.getElem?_take]
  split <;> rfl

theorem glyphAt_drop (is : List Item) (i k : Nat) : glyphAt (is.drop i) k = glyphAt is (i + k) := by
  unfold glyphAt
  rw [List.getElem?_drop]

theorem hasGlyph_iff (is : List Item) : hasGlyph is = true ↔ ∃ k, (glyphAt is k).isSome = true := by
  simp only [hasGlyph, List.any_eq_true, glyphAt_isSome, List.mem_iff_getElem?]
  exact ⟨fun ⟨i, ⟨k, at_⟩, is⟩ => ⟨k, i, at_, is⟩, fun ⟨k, i, at_, is⟩ => ⟨i, ⟨k, at_⟩, is⟩⟩

theorem hasGlyph_take (is : List Item) (i : Nat) :
    hasGlyph (is.take i) = true ↔ ∃ k ∈ List.range i, (glyphAt is k).isSome = true := by
  simp only [hasGlyph_iff, glyphAt_take, List.mem_range]
  refine exists_congr fun k => ?_
  split
  · rename_i below
    simp [below]
  · rename_i above
    simp [above]

theorem hasGlyph_drop (is : List Item) (i : Nat) :
    hasGlyph (is.drop (i + 1)) = true ↔ ∃ k ∈ List.range is.length, i < k ∧ (glyphAt is k).isSome = true := by
  simp only [hasGlyph_iff, glyphAt_drop, List.mem_range]
  constructor
  · rintro ⟨k, some⟩
    exact ⟨i + 1 + k, glyphAt_lt some, by omega, some⟩
  · rintro ⟨k, -, past, some⟩
    refine ⟨k - (i + 1), ?_⟩
    rwa [show i + 1 + (k - (i + 1)) = k by omega]

theorem glyphAt_append_last (is : List Item) (x : Item) :
    glyphAt (is ++ [x]) is.length = glyphAt [x] 0 := by
  simp [glyphAt]

theorem glyphAt_append_lt (is : List Item) (x : Item) {k : Nat} (below : k < is.length) :
    glyphAt (is ++ [x]) k = glyphAt is k := by
  rw [glyphAt, List.getElem?_append_left below]
  rfl

/-- The last glyph of a run of items, and its place. -/
theorem lastGlyph_spec (is : List Item) (some_ : hasGlyph is = true) :
    ∃ k g, glyphAt is k = some g ∧ lastGlyph is = some g ∧ afterLastGlyph is = k + 1 ∧
      ∀ l, k < l → glyphAt is l = none := by
  induction is using List.reverseRecOn with
  | nil => cases some_
  | append_singleton is x ih =>
    obtain ⟨piece, after⟩ := x
    have past : ∀ l, is.length < l → glyphAt (is ++ [⟨piece, after⟩]) l = none := by
      intro l beyond
      rw [glyphAt, List.getElem?_eq_none (by simp; omega)]
      rfl
    have skips : Piece.isGlyph piece = false →
        ∃ k g, glyphAt (is ++ [⟨piece, after⟩]) k = some g ∧ lastGlyph (is ++ [⟨piece, after⟩]) = some g ∧
          afterLastGlyph (is ++ [⟨piece, after⟩]) = k + 1 ∧ ∀ l, k < l → glyphAt (is ++ [⟨piece, after⟩]) l = none := by
      intro not_glyph
      obtain ⟨k, g, at_, last, place, none_after⟩ := ih (by simpa [hasGlyph, not_glyph] using some_)
      have within : k < is.length := glyphAt_lt (by rw [at_]; rfl)
      refine ⟨k, g, by rw [glyphAt_append_lt _ _ within, at_], ?_, ?_, fun l later => ?_⟩
      · rw [← last, lastGlyph, lastGlyph, List.reverse_append]
        cases piece with
        | glyph g => cases not_glyph
        | fixed w => rfl
        | mark f z => rfl
      · rw [← place, afterLastGlyph, afterLastGlyph, List.reverse_append, List.reverse_singleton, List.singleton_append,
          List.dropWhile_cons_of_pos (by simpa using not_glyph)]
      · rcases Nat.lt_trichotomy l is.length with below | rfl | beyond
        · rw [glyphAt_append_lt _ _ below, none_after l later]
        · rw [glyphAt_append_last]
          cases piece with
          | glyph g => cases not_glyph
          | fixed w => rfl
          | mark f z => rfl
        · exact past l beyond
    cases piece with
    | glyph g =>
      refine ⟨is.length, g, by rw [glyphAt_append_last]; rfl, by simp [lastGlyph], ?_, past⟩
      simp [afterLastGlyph, Piece.isGlyph]
    | fixed w => exact skips rfl
    | mark f z => exact skips rfl

/-- The glyph before a place, and that none stands between. -/
def LastBefore (is : List Item) (i k : Nat) : Prop := ∀ l ∈ List.range i, k < l → glyphAt is l = none

theorem lastBefore_unique {is : List Item} {i k k' : Nat} {g g' : Glyph} (below : k < i) (below' : k' < i)
    (at_ : glyphAt is k = some g) (at' : glyphAt is k' = some g') (last : LastBefore is i k) (last' : LastBefore is i k') :
    k = k' := by
  rcases Nat.lt_trichotomy k k' with less | same | more
  · have none := last k' (List.mem_range.2 below') less
    rw [at'] at none
    cases none
  · exact same
  · have none := last' k (List.mem_range.2 below) more
    rw [at_] at none
    cases none

theorem lastGlyph_take (is : List Item) (i : Nat) (some_ : hasGlyph (is.take i) = true) :
    ∃ k g, k < i ∧ glyphAt is k = some g ∧ lastGlyph (is.take i) = some g ∧ afterLastGlyph (is.take i) = k + 1 ∧
      LastBefore is i k := by
  obtain ⟨k, g, at_, last, place, none_after⟩ := lastGlyph_spec _ some_
  rw [glyphAt_take] at at_
  split at at_
  · rename_i below
    refine ⟨k, g, below, at_, last, place, fun l within later => ?_⟩
    have none := none_after l later
    rwa [glyphAt_take, if_pos (List.mem_range.1 within)] at none
  · cases at_

theorem hardHyphenAt_iff (is : List Item) (i : Nat) :
    hardHyphenAt is i = true ↔ ∃ g ∈ (glyphAt is i).toList, g.read = 0x2D := by
  unfold hardHyphenAt glyphAt
  cases is[i]? with
  | none => simp
  | some x =>
    obtain ⟨piece, after⟩ := x
    cases piece with
    | glyph g =>
      simp only [Option.bind_some, decide_eq_true_eq, Option.toList_some, List.mem_singleton, exists_eq_left]
      rfl
    | fixed w => simp
    | mark f z => simp

/-- The mark at a place, read through its piece. -/
theorem markAt_eq (is : List Item) (i : Nat) :
    markAt is i = (is[i]?).bind fun x => match x.piece with
      | .mark f z => some (f, z)
      | _ => none := by
  unfold markAt
  cases is[i]? with
  | none => rfl
  | some x =>
    obtain ⟨piece, after⟩ := x
    cases piece <;> rfl

/-! ## Marks and hard hyphens (R119, R120) -/

/-- The candidate of a mark: at the hard hyphen that stands before it, or after the mark with a hyphen glyph (R119). -/
def markBreak (i k : Nat) (fz : Nat × Nat) (g : Glyph) : Candidate :=
  if g.read = 0x2D then ⟨k + 1, none, .hardHyphen⟩ else ⟨i + 1, some fz, .discretionary⟩

theorem mem_markCandidates (is : List Item) (c : Candidate) :
    c ∈ markCandidates is ↔ ∃ i fz k g, i < is.length ∧ markAt is i = some fz ∧ k < i ∧ glyphAt is k = some g ∧
      LastBefore is i k ∧ (∃ l ∈ List.range is.length, i < l ∧ (glyphAt is l).isSome = true) ∧
      markAt is (i + 1) = none ∧ c = markBreak i k fz g := by
  simp only [markCandidates, List.mem_filterMap, List.mem_range]
  constructor
  · rintro ⟨i, within, made⟩
    split at made
    · cases made
    · rename_i fz at_
      split at made
      · rename_i interior
        obtain ⟨⟨before, after⟩, alone⟩ : (hasGlyph (is.take i) = true ∧ hasGlyph (is.drop (i + 1)) = true) ∧
          (markAt is (i + 1)).isNone = true := by simpa only [Bool.and_eq_true] using interior
        obtain ⟨k, g, below, glyph, last, place, lastBefore⟩ := lastGlyph_take is i before
        rw [last, place] at made
        refine ⟨i, fz, k, g, within, at_, below, glyph, lastBefore,
          by simpa using (hasGlyph_drop is i).1 after, by simpa using alone, ?_⟩
        by_cases hyphen : g.read = 0x2D
        · rw [markBreak, if_pos hyphen]
          exact (Option.some.inj ((if_pos hyphen).symm.trans made)).symm
        · rw [markBreak, if_neg hyphen]
          exact (Option.some.inj ((if_neg hyphen).symm.trans made)).symm
      · cases made
  · rintro ⟨i, fz, k, g, within, at_, below, glyph, lastBefore, after, alone, rfl⟩
    refine ⟨i, within, ?_⟩
    have before : hasGlyph (is.take i) = true :=
      (hasGlyph_take is i).2 ⟨k, List.mem_range.2 below, by rw [glyph]; rfl⟩
    obtain ⟨k', g', below', glyph', last, place, lastBefore'⟩ := lastGlyph_take is i before
    obtain rfl := lastBefore_unique below below' glyph glyph' lastBefore lastBefore'
    obtain rfl : g = g' := Option.some.inj (glyph.symm.trans glyph')
    have rest : hasGlyph (is.drop (i + 1)) = true := (hasGlyph_drop is i).2 (by simpa only [List.mem_range] using after)
    rw [at_, last, place, alone]
    simp only [before, rest, Option.isNone_none, Bool.and_self, if_true]
    exact (apply_ite some _ _ _).symm

theorem mem_hardCandidates (is : List Item) (c : Candidate) :
    c ∈ hardCandidates is ↔ ∃ i, i < is.length ∧ (∃ g ∈ (glyphAt is i).toList, g.read = 0x2D) ∧
      (∃ k ∈ List.range i, (glyphAt is k).isSome = true) ∧
      (∃ k ∈ List.range is.length, i < k ∧ (glyphAt is k).isSome = true) ∧ c = ⟨i + 1, none, .hardHyphen⟩ := by
  simp only [hardCandidates, List.mem_filterMap, Option.ite_none_right_eq_some, Bool.and_eq_true, hardHyphenAt_iff,
    hasGlyph_take, hasGlyph_drop, and_assoc, Option.some.injEq, eq_comm (a := c)]
  simp only [List.mem_range]

theorem candidates_marks (s : State) (f : Format) {is : List Item} (marks : markCandidates is ≠ []) :
    candidates s f is = markCandidates is ++ hardCandidates is := by
  simp [candidates, marks]

theorem candidates_hards (s : State) (f : Format) {is : List Item} (marks : markCandidates is = [])
    (hards : hardCandidates is ≠ []) : candidates s f is = hardCandidates is := by
  simp [candidates, marks, hards]

theorem candidates_core (s : State) (f : Format) {is : List Item} (marks : markCandidates is = [])
    (hards : hardCandidates is = []) :
    candidates s f is = ((eligibleCore s f is).map (coreCandidates s.dict f)).getD [] := by
  simp only [candidates, marks, hards, List.isEmpty_nil, Bool.not_true, Bool.false_eq_true, if_false]
  cases eligibleCore s f is <;> rfl

/-! ## Cores (R117, R118, R121, R124) -/

theorem letter_glyph (g : Glyph) (m : Mark) :
    Item.letter ⟨.glyph g, m⟩ = if isLetter g.read then some (fold g.read, g) else none := rfl

theorem dropWhile_letters {pre core : List Item} (outside : ∀ i ∈ pre, i.letter = none)
    (starts : (core.head?.bind Item.letter).isSome = true) :
    (pre ++ core).dropWhile (fun i => i.letter.isNone) = core := by
  have skipped : ∀ i ∈ pre, i.letter.isNone = true := fun i hi => by rw [outside i hi]; rfl
  rw [List.dropWhile_append_of_pos skipped]
  cases core with
  | nil => cases starts
  | cons x rest =>
    have letter : x.letter.isSome = true := starts
    exact List.dropWhile_cons_of_neg (by simpa [Option.isSome_iff_ne_none] using letter)

/-- The core runs from the first letter to the last. -/
theorem coreItems_eq {pre core post : List Item} (outside : ∀ i ∈ pre ++ post, i.letter = none)
    (starts : (core.head?.bind Item.letter).isSome = true) (ends : (core.getLast?.bind Item.letter).isSome = true) :
    coreItems (pre ++ core ++ post) = core := by
  have starts' : ((core ++ post).head?.bind Item.letter).isSome = true := by
    cases core with
    | nil => cases starts
    | cons x rest => exact starts
  rw [coreItems, List.append_assoc, dropWhile_letters (fun i hi => outside i (List.mem_append_left _ hi)) starts',
    List.reverse_append,
    dropWhile_letters (fun i hi => outside i (List.mem_append_right _ (List.mem_reverse.1 hi))) (by simpa using ends),
    List.reverse_reverse]

theorem findIdx_core {pre core post : List Item} (outside : ∀ i ∈ pre ++ post, i.letter = none)
    (starts : (core.head?.bind Item.letter).isSome = true) :
    (pre ++ core ++ post).findIdx (fun i => i.letter.isSome) = pre.length := by
  induction pre with
  | nil =>
    cases core with
    | nil => cases starts
    | cons x rest =>
      have letter : x.letter.isSome = true := starts
      simp [List.findIdx_cons, letter]
  | cons p pre ih =>
    have inner := ih fun i hi => outside i (List.mem_cons_of_mem _ hi)
    have first : p.letter = none := outside p List.mem_cons_self
    simp only [List.append_assoc] at inner
    simp [List.findIdx_cons, first, inner]

theorem length_filterMap_letter (core : List Item) :
    (core.filterMap Item.letter).length = core.length ↔ ∀ i ∈ core, i.letter.isSome = true := by
  induction core with
  | nil => simp
  | cons x rest ih =>
    have short := List.length_filterMap_le Item.letter rest
    cases at_ : x.letter with
    | none =>
      rw [List.filterMap_cons_none at_]
      simp only [List.length_cons, List.forall_mem_cons, at_, Option.isSome_none, Bool.false_eq_true, false_and, iff_false]
      omega
    | some l =>
      rw [List.filterMap_cons_some at_]
      simp only [List.length_cons, List.forall_mem_cons, at_, Option.isSome_some, true_and, Nat.add_right_cancel_iff, ih]

/-- A core is eligible: hyphenation on, two letters or more, letters alone, in fonts that hyphenate (R118). -/
def Eligible (s : State) (f : Format) (core : List Item) : Prop :=
  f.hyphenation = true ∧ 2 ≤ core.length ∧
    ∀ i ∈ core, i.letter.isSome = true ∧ ∀ l, i.letter = some l → mayHyphenate s l.2.font = true

theorem eligibleTest_iff (s : State) (f : Format) (core : List Item) :
    (f.hyphenation && decide ((core.filterMap Item.letter).length = core.length) &&
        (core.filterMap Item.letter).all (fun l => mayHyphenate s l.2.font) &&
        decide (2 ≤ (core.filterMap Item.letter).length)) = true ↔ Eligible s f core := by
  simp only [Bool.and_eq_true, decide_eq_true_eq, List.all_eq_true, List.mem_filterMap, length_filterMap_letter, Eligible]
  constructor
  · rintro ⟨⟨⟨on, letters⟩, fonts⟩, two⟩
    rw [(length_filterMap_letter core).2 letters] at two
    exact ⟨on, two, fun i hi => ⟨letters i hi, fun l is => fonts l ⟨i, hi, is⟩⟩⟩
  · rintro ⟨on, two, all⟩
    refine ⟨⟨⟨on, fun i hi => (all i hi).1⟩, fun l ⟨i, hi, is⟩ => (all i hi).2 l is⟩, ?_⟩
    rwa [(length_filterMap_letter core).2 fun i hi => (all i hi).1]

theorem coreCandidates_eq (d : Dictionary) (f : Format) (core : Core) :
    coreCandidates d f core =
      ((corePositions d (core.letters.map (·.1))).2.filter fun p =>
        decide (f.minBefore ≤ p ∧ p < (core.letters.map (·.1)).length ∧
          f.minAfter ≤ (core.letters.map (·.1)).length - p)).flatMap fun p =>
        (core.letters[p - 1]?).toList.map fun l =>
          ⟨core.at_ + p, some (l.2.font, l.2.size), (corePositions d (core.letters.map (·.1))).1⟩ := by
  rw [coreCandidates, List.filterMap_eq_flatMap_toList, List.length_map]
  refine List.flatMap_congr fun p _ => ?_
  cases core.letters[p - 1]? <;> rfl

theorem corePositions_eq (d : Dictionary) (word : List Byte) :
    corePositions d word =
      (if word.length ≤ 24 ∧ (lookupWord d word).isSome = true then .dictionary else .rules,
       if word.length ≤ 24 then ((lookupWord d word).map (·.breaks)).getD (rulePositions word) else rulePositions word) := by
  unfold corePositions
  by_cases short : word.length ≤ 24
  · simp only [short, if_true, true_and]
    cases lookupWord d word <;> simp
  · simp [short]

/-! ## The break offered (R125, R126) -/

theorem candidateFits_iff (s : State) (sh : Shape) (ws : List LineWord) (before : Option Space) (is : List Item)
    (c : Candidate) :
    candidateFits s sh ws before is c = true ↔
      (ws.map fun w => itemsWidth w.items).sum + itemsWidth (is.take c.upTo) +
          (c.hyphen.map fun fz => 5 * fontWidth s fz.1 0x2D * fz.2).getD 0 +
          ((ws.filterMap (·.before) ++ before.toList).map (·.min)).sum ≤ 12 * (sh.measure - sh.indent) ∧
        (ws.map fun w => itemsElements w.items).sum + itemsElements (is.take c.upTo) + c.hyphen.toList.length ≤ 160 := by
  have spaces : spacesOf (ws ++ [⟨before, is.take c.upTo⟩]) = ws.filterMap (·.before) ++ before.toList := by
    rw [spacesOf, List.filterMap_append]
    cases before <;> rfl
  have one : (if (c.hyphen.map fun fz => (hyphenGlyph s fz).width).isSome = true then 1 else 0) = c.hyphen.toList.length := by
    cases c.hyphen <;> rfl
  rw [candidateFits, fits, Bool.and_eq_true, decide_eq_true_eq, decide_eq_true_eq, minSpaces, spaces, one, wordsWidth,
    wordsElements]
  simp only [List.map_append, List.map_cons, List.map_nil, List.sum_append, List.sum_singleton]
  rfl

/-- The candidate to the right of every other is the one taken. -/
theorem foldl_furtherRight {c : Candidate} (l : List Candidate) (best : Candidate)
    (most : ∀ x ∈ l, x = c ∨ x.upTo < c.upTo) (first : best = c ∨ best.upTo < c.upTo) (there : best = c ∨ c ∈ l) :
    l.foldl furtherRight (some best) = some c := by
  induction l generalizing best with
  | nil =>
    rcases there with rfl | none
    · rfl
    · cases none
  | cons x rest ih =>
    have others : ∀ y ∈ rest, y = c ∨ y.upTo < c.upTo := fun y hy => most y (List.mem_cons_of_mem _ hy)
    rw [List.foldl_cons, furtherRight]
    split
    · rename_i right
      rcases most x List.mem_cons_self with rfl | less
      · exact ih _ others (.inl rfl) (.inl rfl)
      · refine ih _ others (.inr less) (.inr ?_)
        rcases there with rfl | there
        · omega
        · rcases List.mem_cons.1 there with rfl | there
          · omega
          · exact there
    · rename_i left
      refine ih _ others first ?_
      rcases there with rfl | there
      · exact .inl rfl
      · rcases List.mem_cons.1 there with rfl | there
        · rcases first with same | less
          · exact .inl same
          · exact absurd less left
        · exact .inr there

theorem offeredBreak_none {s : State} {f : Format} {sh : Shape} {ws : List LineWord} {before : Option Space}
    {is : List Item} (no : ∀ c ∈ candidates s f is, candidateFits s sh ws before is c = false) :
    offeredBreak s f sh ws before is = none := by
  rw [offeredBreak, List.filter_eq_nil_iff.2 fun c hc => by rw [no c hc]; exact Bool.false_ne_true]
  rfl

theorem offeredBreak_some {s : State} {f : Format} {sh : Shape} {ws : List LineWord} {before : Option Space}
    {is : List Item} {c : Candidate} (member : c ∈ candidates s f is) (fits : candidateFits s sh ws before is c = true)
    (most : ∀ x ∈ candidates s f is, candidateFits s sh ws before is x = true → x = c ∨ x.upTo < c.upTo) :
    offeredBreak s f sh ws before is = if ∃ fz ∈ c.hyphen.toList, fontWidth s fz.1 0x2D = 0 then none else some c := by
  have taken : ((candidates s f is).filter (candidateFits s sh ws before is)).foldl furtherRight none = some c := by
    have there : c ∈ (candidates s f is).filter (candidateFits s sh ws before is) := List.mem_filter.2 ⟨member, fits⟩
    have most' : ∀ x ∈ (candidates s f is).filter (candidateFits s sh ws before is), x = c ∨ x.upTo < c.upTo := by
      intro x hx
      obtain ⟨among, fit⟩ := List.mem_filter.1 hx
      exact most x among fit
    generalize (candidates s f is).filter (candidateFits s sh ws before is) = l at there most'
    cases l with
    | nil => cases there
    | cons x rest =>
      refine foldl_furtherRight rest x (fun y hy => most' y (List.mem_cons_of_mem _ hy)) (most' x List.mem_cons_self) ?_
      rcases List.mem_cons.1 there with rfl | there
      · exact .inl rfl
      · exact .inr there
  rw [offeredBreak, taken]
  obtain ⟨upTo, hyphen, source⟩ := c
  cases hyphen with
  | none => simp
  | some fz =>
    simp only [Option.toList_some, List.mem_singleton, exists_eq_left]
    rfl

theorem mayHyphenate_iff (s : State) (f : Nat) :
    mayHyphenate s f = true ↔ ∃ lv st tb dn sb nm, descAt s f = some (.font .textFont lv st tb dn sb true nm) := by
  unfold mayHyphenate
  split
  · rename_i lv st tb dn sb h nm is
    rw [is]
    simp
  · rename_i other
    simp only [Bool.false_eq_true, false_iff]
    rintro ⟨lv, st, tb, dn, sb, nm, is⟩
    exact other _ _ _ _ _ _ _ is

/-! ## The statement -/

/-- Settles O29: DICT-DELETE and DICT-LOOKUP, the break rules, a word's candidates, its core, and the break offered. -/
theorem dictDeleteAndLookupTaken : Obligations.DictDeleteAndLookupTaken := by
  refine ⟨?delete, ?lookup, ?rules, ?sources, ?eligible, fun d f core => ?core, ?offered, fun g width font size m =>
    ⟨fun letter => ⟨fold g.read, rfl, if_pos letter⟩, fun other => if_neg (by rw [other]; exact Bool.false_ne_true),
      rfl, rfl⟩, mayHyphenate_iff⟩
  case delete =>
    intro d w s takes allowed fits answer word chain left
    have wellFormed : payloadFits 0 (byteOf w.length :: w) = true := by
      simp only [payloadFits, List.length_cons, decide_eq_true_eq]
      omega
    have handled : answer = .next (requestDictDelete d (byteOf w.length :: w) (restartSilence d s)) :=
      exec_handled (.dictDelete d (byteOf w.length :: w)) d ⟨0x21, _⟩ s rfl wellFormed takes allowed
    rw [handled, requestDictDelete_eq (oneWordForm_word w (by omega))]
    have notSaving (free : savingDictionary s = false) : ¬ savingDictionary (restartSilence d s) = true := fun saving =>
      Bool.false_ne_true (free.symm.trans saving)
    refine ⟨fun saving => ?_, fun free => ⟨fun bad => ?_, fun ok => ⟨fun found => ⟨?_, fun sound => ?_⟩, fun absent => ?_⟩⟩⟩
    · rw [if_pos (show savingDictionary (restartSilence d s) = true from saving)]
      rfl
    · rw [if_neg (notSaving free), if_pos bad]
      rfl
    · rw [if_neg (notSaving free), if_neg (by simp [ok]), if_pos (show
        (lookupWord (restartSilence d s).dict (foldWord w)).isSome = true from (lookupWord_isSome s.dict word).2 found)]
      rfl
    · obtain ⟨e, member, same⟩ := found
      exact dictCount_dictRemove sound member same
    · have none : ¬ (lookupWord (restartSilence d s).dict (foldWord w)).isSome = true := fun h =>
        have ⟨e, member, same⟩ := (lookupWord_isSome s.dict word).1 h
        absent e member same
      rw [if_neg (notSaving free), if_neg (by simp [ok]), if_neg none]
      rfl
  case lookup =>
    intro d w s takes allowed fits answer chain
    have wellFormed : payloadFits 0 (byteOf w.length :: w) = true := by
      simp only [payloadFits, List.length_cons, decide_eq_true_eq]
      omega
    have handled : answer = .next (requestDictLookup d (byteOf w.length :: w) (restartSilence d s)) :=
      exec_handled (.dictLookup d (byteOf w.length :: w)) d ⟨0x22, _⟩ s rfl wellFormed takes allowed
    rw [handled, requestDictLookup_eq (oneWordForm_word w (by omega))]
    refine ⟨fun bad => ?_, fun ok => ⟨fun absent => ?_, ?found⟩⟩
    · rw [if_pos bad]
      rfl
    · rw [if_neg (by simp [ok]), show lookupWord (restartSilence d s).dict (foldWord w) = none from lookupWord_absent absent]
      rfl
    case found =>
      intro e older newer split same others rules
      rw [if_neg (by simp [ok]), show lookupWord (restartSilence d s).dict (foldWord w) = some e from
        lookupWord_first split same others, Option.elim_some, lookupData, same]
      rfl
  case rules =>
    intro w letter vowel digraphs endings between ending
    have ordered : (rulePositions w).Pairwise (· < ·) := List.Pairwise.filter _ (List.pairwise_lt_range' (s := 1))
    refine ⟨ordered, fun i => (mem_rulePositions w i).trans (and_congr_right fun _ => and_congr_right fun _ => ?_)⟩
    refine or_congr ((vccvAt_iff w i).trans ?_) (suffixAt_iff w i)
    have digraph : isDigraph (w.getD (i - 1) 0) (w.getD i 0) = false ↔ (letter i, letter (i + 1)) ∉ digraphs := by
      rw [← Bool.not_eq_true, isDigraph_iff]
      rfl
    rw [digraph]
    rfl
  case sources =>
    intro s f is glyph mark before after marks hards at_ lastBefore
    have mark_eq : ∀ k, mark k = markAt is k := fun k => (markAt_eq is k).symm
    refine ⟨fun i hi fz hfz k hk g hg last interior alone => ?_, fun c hc => ?_, fun i hi hyphen some_ interior => ?_,
      fun c hc => ?_, candidates_marks s f, candidates_hards s f, candidates_core s f⟩
    · refine (mem_markCandidates is _).2 ⟨i, fz, k, g, List.mem_range.1 hi, ?_, List.mem_range.1 hk,
        Option.mem_toList.1 hg, last, interior, ?_, rfl⟩
      · exact (mark_eq i).symm.trans (Option.mem_toList.1 hfz)
      · exact (mark_eq (i + 1)).symm.trans alone
    · obtain ⟨i, fz, k, g, hi, hfz, hk, hg, last, interior, alone, rfl⟩ := (mem_markCandidates is c).1 hc
      exact ⟨i, List.mem_range.2 hi, fz, Option.mem_toList.2 ((mark_eq i).trans hfz), k, List.mem_range.2 hk, g,
        Option.mem_toList.2 hg, last, interior, (mark_eq (i + 1)).trans alone, rfl⟩
    · exact (mem_hardCandidates is _).2 ⟨i, List.mem_range.1 hi, hyphen, some_, interior, rfl⟩
    · obtain ⟨i, hi, rest⟩ := (mem_hardCandidates is c).1 hc
      exact ⟨i, List.mem_range.2 hi, rest⟩
  case eligible =>
    intro s f pre core post outside starts ends eligible
    unfold eligibleCore
    rw [coreItems_eq outside starts ends, findIdx_core outside starts]
    exact ⟨fun is => if_pos ((eligibleTest_iff s f core).2 is), fun isNot => if_neg (mt (eligibleTest_iff s f core).1 isNot)⟩
  case core =>
    have positions := corePositions_eq d (core.letters.map (·.1))
    have form := coreCandidates_eq d f core
    rw [positions] at form
    exact form
  case offered =>
    intro s f sh ws before is width glyphs fit cs absent t
    refine ⟨fun no => offeredBreak_none fun c hc => ?_, fun c hc fits most => ?_⟩
    · exact Bool.eq_false_iff.2 fun fits => no c hc ((candidateFits_iff s sh ws before is c).1 fits)
    · exact offeredBreak_some hc ((candidateFits_iff s sh ws before is c).2 fits) fun x hx fit =>
        most x hx ((candidateFits_iff s sh ws before is x).1 fit)

end Sys2Proof.Proofs

/-! PROOFS. Start-up (12): the settings and the dictionary loaded from their regions (for O33), the state right after
start-up (O33, O59). -/

namespace Sys2Proof.Proofs

open Sys2Proof.Machine

/-- What a fold over the numbers below `n` keeps, number by number. -/
theorem foldl_finRange {α : Type} {n : Nat} (f : α → Fin n → α) (P : Nat → α → Prop) {a : α} (start : P 0 a)
    (next : ∀ (i : Fin n) (b : α), P i.val b → P (i.val + 1) (f b i)) : P n ((List.finRange n).foldl f a) := by
  induction n with
  | zero => exact start
  | succ n ih =>
    rw [List.finRange_succ_last, List.foldl_append, List.foldl_map]
    exact next (Fin.last n) _ (ih (fun b i => f b i.castSucc) fun i b => next i.castSucc b)

/-! ## The settings loaded (R184) -/

/-- A write of the value leaves it, and the settings before it, as they are: what the orders ask of it (R9, R47, R164). -/
def InOrder (t : Settings) (id n : Nat) : Prop :=
  (id = 11 → t.fullReserve ≤ n) ∧ (id = 12 → t.fullReserve ≤ t.low ∧ t.low < n) ∧ (id = 16 → n ∈ Config.lensSizes) ∧
  (id = 19 → n + 360 ≤ t.house.measure) ∧ (id = 22 → t.house.spMin ≤ n) ∧
  (id = 23 → t.house.spMin ≤ t.house.spNorm ∧ t.house.spNorm ≤ n) ∧ (id = 39 → t.cutMargin ≤ n)

theorem snapSize_lens {n : Nat} (lens : n ∈ Config.lensSizes) : snapSize n = n := by
  have all : ∀ z ∈ Config.lensSizes, snapSize z = z := by decide
  exact all n lens

/-- A write in order sets its value after the values before it. -/
theorem take_valueList_set (i n : Nat) (t : Settings) (known : i < 41) (fits : n ≤ rangeList[i].2)
    (order : InOrder t (i + 1) n) : (valueList (t.set (i + 1) n)).take (i + 1) = (valueList t).take i ++ [n] := by
  have length (u : Settings) : (valueList u).length = 41 := rfl
  by_cases plain : plainSetting (i + 1) = true
  · rw [valueList_set i n t known plain fits, List.take_add_one, List.getElem?_set_self (by rw [length]; exact known),
      List.take_set_of_le (Nat.le_refl i)]
    rfl
  · obtain ⟨low, high, size, indent, norm, max, cut⟩ := order
    have special : i = 9 ∨ i = 10 ∨ i = 11 ∨ i = 15 ∨ i = 17 ∨ i = 18 ∨ i = 20 ∨ i = 21 ∨ i = 22 ∨ i = 37 ∨ i = 38 := by
      have listed : plainSetting (i + 1) = false := by simpa using plain
      simp only [plainSetting, Bool.not_eq_false', List.contains_eq_mem, decide_eq_true_eq, List.mem_cons, List.not_mem_nil,
        or_false] at listed
      omega
    rcases special with rfl | rfl | rfl | rfl | rfl | rfl | rfl | rfl | rfl | rfl | rfl
    case inl => rfl
    case inr.inl => simpa [valueList, Settings.set, Settings.orderThresholds] using low rfl
    case inr.inr.inl =>
      obtain ⟨first, second⟩ := high rfl
      simp [valueList, Settings.set, Settings.orderThresholds, first, second]
    case inr.inr.inr.inl =>
      have snapped := snapSize_lens (size rfl)
      simp [valueList, Settings.set, Format.setHouse, Format.withSize, snapped]
    case inr.inr.inr.inr.inl => rfl
    case inr.inr.inr.inr.inr.inl =>
      have inside := indent rfl
      simp [valueList, Settings.set, Format.setHouse, Format.withIndent]
      omega
    case inr.inr.inr.inr.inr.inr.inl => rfl
    case inr.inr.inr.inr.inr.inr.inr.inl => simpa [valueList, Settings.set, Format.setHouse, Format.orderSpaces] using norm rfl
    case inr.inr.inr.inr.inr.inr.inr.inr.inl =>
      obtain ⟨first, second⟩ := max rfl
      simp [valueList, Settings.set, Format.setHouse, Format.orderSpaces, first, second]
    case inr.inr.inr.inr.inr.inr.inr.inr.inr.inl => rfl
    case inr.inr.inr.inr.inr.inr.inr.inr.inr.inr => simpa [valueList, Settings.set, Settings.orderCut] using cut rfl

/-- The max take is a whole number of feet tens, whatever is set (R185). -/
theorem maxTake_set (id n : Nat) (t : Settings) (tens : t.maxTake % 10 = 0) : (t.set id n).maxTake % 10 = 0 := by
  unfold Settings.set
  split
  case h_22 => exact Nat.mul_mod_right 10 n
  all_goals exact tens

theorem flag_toNat_inj {a b : Bool} (same : a.toNat = b.toNat) : a = b := by
  cases a <;> cases b <;> simp_all

theorem align_code_inj {a b : Machine.Alignment} (same : a.code = b.code) : a = b := by
  cases a <;> cases b <;> simp_all [Machine.Alignment.code]

theorem rounding_code_inj {a b : Machine.Rounding} (same : a.code = b.code) : a = b := by
  cases a <;> cases b <;> simp_all [Machine.Rounding.code]

theorem excSet_bits_inj {a b : ExcSet} (same : a.bits = b.bits) : a = b := by
  have back (c : ExcSet) : ExcSet.ofBits c.bits = c := by
    obtain ⟨l, o, h, n, m⟩ := c
    revert l o h n m
    decide
  rw [← back a, ← back b, same]

theorem format_eq_iff {f g : Format} : f = g ↔
    f.font = g.font ∧ f.size = g.size ∧ f.leading = g.leading ∧ f.measure = g.measure ∧ f.indent = g.indent ∧
    f.align = g.align ∧ f.spMin = g.spMin ∧ f.spNorm = g.spNorm ∧ f.spMax = g.spMax ∧ f.hyphenation = g.hyphenation ∧
    f.minBefore = g.minBefore ∧ f.minAfter = g.minAfter ∧ f.ladder = g.ladder ∧ f.mask = g.mask ∧
    f.rounding = g.rounding := by
  cases f
  cases g
  exact Eq.to_iff (Format.mk.injEq ..)

theorem settings_eq_iff {t u : Settings} : t = u ↔
    t.deskLevel = u.deskLevel ∧ t.silence = u.silence ∧ t.storedMask = u.storedMask ∧ t.fullReserve = u.fullReserve ∧
    t.low = u.low ∧ t.high = u.high ∧ t.holdTime = u.holdTime ∧ t.heldTimeout = u.heldTimeout ∧ t.house = u.house ∧
    t.confirmTimeout = u.confirmTimeout ∧ t.retryLimit = u.retryLimit ∧ t.soak = u.soak ∧ t.aref = u.aref ∧
    t.avgK = u.avgK ∧ t.weakThreshold = u.weakThreshold ∧ t.failThreshold = u.failThreshold ∧ t.maxTake = u.maxTake ∧
    t.cutMargin = u.cutMargin ∧ t.cutReserve = u.cutReserve ∧ t.reverseLimit = u.reverseLimit ∧
    t.lowThreshold = u.lowThreshold := by
  cases t
  cases u
  exact Eq.to_iff (Settings.mk.injEq ..)

/-- The values tell the settings apart. -/
theorem settings_ext {t u : Settings} (values : valueList t = valueList u) (tens : t.maxTake % 10 = 0)
    (tens' : u.maxTake % 10 = 0) : t = u := by
  have four {α : Type} {v w : Vector α 4} (h0 : v[0] = w[0]) (h1 : v[1] = w[1]) (h2 : v[2] = w[2]) (h3 : v[3] = w[3]) :
      v = w := Vector.ext fun i h => by
    interval_cases i
    · exact h0
    · exact h1
    · exact h2
    · exact h3
  have at_ (k : Fin 41) : (valueList t)[k.val]'k.isLt = (valueList u)[k.val]'k.isLt :=
    List.getElem_of_eq values _
  have mask : t.house.mask = u.house.mask := excSet_bits_inj (at_ 27)
  have house : t.house = u.house := by
    rw [format_eq_iff]
    exact ⟨at_ 14, at_ 15, at_ 16, at_ 17, at_ 18, align_code_inj (at_ 19), at_ 20, at_ 21, at_ 22,
      flag_toNat_inj (at_ 23), at_ 24, at_ 25, at_ 26, mask, rounding_code_inj (at_ 28)⟩
  have tenths : t.maxTake / 10 = u.maxTake / 10 := at_ 36
  have take : t.maxTake = u.maxTake := by omega
  rw [settings_eq_iff]
  exact ⟨four (at_ 0) (at_ 1) (at_ 2) (at_ 3), at_ 4, four (BitVec.eq_of_toNat_eq (at_ 5)) (BitVec.eq_of_toNat_eq (at_ 6))
    (BitVec.eq_of_toNat_eq (at_ 7)) (BitVec.eq_of_toNat_eq (at_ 8)), at_ 9, at_ 10, at_ 11, at_ 12, at_ 13, house, at_ 29,
    at_ 30, at_ 31, at_ 32, at_ 33, at_ 34, at_ 35, take, at_ 37, at_ 38, at_ 39, at_ 40⟩

/-- The settings that a save copied come back as they stood. -/
theorem loadSettings_image {u : Settings} (sound : SettingsSound u) :
    loadSettings (Vector.ofFn fun i => (u.get (i.val + 1) : Int)) = u := by
  obtain ⟨ranges, low, high, cut, tens, size, indent, norm, max⟩ := sound
  let P (k : Nat) (t : Settings) : Prop := (valueList t).take k = (valueList u).take k ∧ t.maxTake % 10 = 0
  have loaded : P 41 (loadSettings (Vector.ofFn fun i => (u.get (i.val + 1) : Int))) := by
    refine foldl_finRange _ P ⟨rfl, rfl⟩ fun i t ⟨agree, whole⟩ => ?_
    have same (k : Nat) (below : k < i.val) : (valueList t)[k]'(by show k < 41; omega) = (valueList u)[k]'(by show k < 41; omega) := by
      have at_ : ((valueList t).take i)[k]? = ((valueList u).take i)[k]? := by rw [agree]
      rw [List.getElem?_take_of_lt below, List.getElem?_take_of_lt below] at at_
      rwa [List.getElem?_eq_getElem (by show k < 41; omega), List.getElem?_eq_getElem (by show k < 41; omega),
        Option.some.injEq] at at_
    obtain ⟨⟨lo, hi⟩, is⟩ : ∃ r, rangeList[i.val]'i.isLt = r := ⟨_, rfl⟩
    have range : settingRange (i.val + 1) = some (lo, hi) := by
      rw [settingRange_eq, if_neg (by omega), ← is]
      exact List.getElem?_eq_getElem _
    have value : u.get (i.val + 1) = (valueList u)[i.val] := get_eq_valueList u i.val i.isLt
    obtain ⟨least, most⟩ := ranges (i.val + 1) lo hi range
    have clamped : (clampInt lo hi (u.get (i.val + 1))).toNat = u.get (i.val + 1) := by
      unfold clampInt
      omega
    have write : t.write (i.val + 1) (Vector.ofFn fun i : Fin 41 => (u.get (i.val + 1) : Int))[i] =
        t.set (i.val + 1) (u.get (i.val + 1)) := by
      simp only [Fin.getElem_fin, Vector.getElem_ofFn, Settings.write, range, clamped]
    rw [write]
    refine ⟨?_, maxTake_set _ _ _ whole⟩
    rw [take_valueList_set i.val _ t i.isLt (by rw [is]; exact most) ?order, agree, value, List.take_add_one,
      List.getElem?_eq_getElem (by show i.val < 41; omega)]
    · rfl
    case order =>
      refine ⟨fun at_ => ?_, fun at_ => ?_, fun at_ => ?_, fun at_ => ?_, fun at_ => ?_, fun at_ => ?_, fun at_ => ?_⟩
      all_goals rw [at_]
      · have full : t.fullReserve = u.fullReserve := same 9 (by omega)
        rw [full]
        exact low
      · have full : t.fullReserve = u.fullReserve := same 9 (by omega)
        have lows : t.low = u.low := same 10 (by omega)
        rw [full, lows]
        exact ⟨low, high⟩
      · exact size
      · have measure : t.house.measure = u.house.measure := same 17 (by omega)
        rw [measure]
        exact indent
      · have least : t.house.spMin = u.house.spMin := same 20 (by omega)
        rw [least]
        exact norm
      · have least : t.house.spMin = u.house.spMin := same 20 (by omega)
        have normal : t.house.spNorm = u.house.spNorm := same 21 (by omega)
        rw [least, normal]
        exact ⟨norm, max⟩
      · have margin : t.cutMargin = u.cutMargin := same 37 (by omega)
        rw [margin]
        exact cut
  obtain ⟨values, whole⟩ := loaded
  rw [List.take_of_length_le (Nat.le_refl 41), List.take_of_length_le (Nat.le_refl 41)] at values
  exact settings_ext values whole tens

/-! ## The directory and the trims loaded (R184) -/

theorem loadDescriptor_sound {stored ds : Vector Descriptor 64} {n : Fin 64} (inRange : stored[n].inRange = true)
    (free : ∀ c, stored[n].strip = some c → stripHeld ds n c = false) :
    loadDescriptor stored ds n = put ds n stored[n] := by
  unfold loadDescriptor
  dsimp only
  refine if_pos ?_
  rw [inRange, Bool.true_and, Bool.not_eq_true']
  cases strip : stored[n].strip with
  | none => rfl
  | some c => exact free c strip

/-- Descriptors in their ranges, with distinct strip codes, come back as they stood. -/
theorem loadDescriptors_sound {stored : Vector Descriptor 64} (inRange : ∀ n : Fin 64, stored[n].inRange = true)
    (distinct : DistinctStrips stored) : loadDescriptors stored = stored := by
  let P (k : Nat) (ds : Vector Descriptor 64) : Prop :=
    (∀ n : Fin 64, n.val < k → ds[n] = stored[n]) ∧ ∀ n : Fin 64, k ≤ n.val → ds[n].strip = none
  have loaded : P 64 (loadDescriptors stored) := by
    refine foldl_finRange _ P ⟨fun n less => absurd less (Nat.not_lt_zero _), fun n _ => ?_⟩ fun i ds ⟨done, left⟩ => ?_
    · simp [Config.emptyDirectory, Descriptor.strip]
    · have free : ∀ c, stored[i].strip = some c → stripHeld ds i c = false := by
        intro c mine
        refine (stripHeld_false ds i c).2 fun m other => ?_
        by_cases below : m.val < i.val
        · rw [done m below]
          exact distinct i m (Ne.symm other) c mine
        · rw [left m (Nat.not_lt.1 below)]
          exact nofun
      rw [loadDescriptor_sound (inRange i) free]
      refine ⟨fun n within => ?_, fun n past => ?_⟩
      · rw [put_entry]
        split
        · rename_i same
          rw [same]
        · rename_i other
          exact done n (by have : n.val ≠ i.val := fun same => other (Fin.ext same); omega)
      · rw [put_entry, if_neg (fun same => by rw [same] at past; omega)]
        exact left n (by omega)
  exact Vector.ext fun k below => loaded.1 ⟨k, below⟩ below

theorem loadTable_sound {t : WidthTable}
    (sound : ∀ i : Fin 96, t.widths[i] ≤ 96 ∧ (t.loaded = false → t.widths[i] = 0)) : loadTable t = t := by
  unfold loadTable
  obtain ⟨widths, loaded⟩ := t
  cases loaded with
  | true =>
    have same : widths.map (min 96) = widths := Vector.ext fun k below => by
      rw [Vector.getElem_map]
      exact Nat.min_eq_right (sound ⟨k, below⟩).1
    simp only [if_true, same]
  | false =>
    have zero : Vector.replicate 96 0 = widths := Vector.ext fun k below => by
      rw [Vector.getElem_replicate]
      exact ((sound ⟨k, below⟩).2 rfl).symm
    simp only [Bool.false_eq_true, if_false, zero]

theorem clamped_sound {t : Trims} (sound : TrimsSound t) : t.clamped = t := by
  obtain ⟨lens, base⟩ := sound
  have one : t.lens.map (clampTrim (-200) 200) = t.lens := Vector.ext fun k below => by
    obtain ⟨least, most, -⟩ := lens ⟨k, below⟩
    rw [Vector.getElem_map]
    simp only [Fin.getElem_fin] at least most
    unfold clampTrim clampInt
    omega
  have two : t.base.map (clampTrim (-50) 50) = t.base := Vector.ext fun k below => by
    obtain ⟨least, most⟩ := base ⟨k, below⟩
    rw [Vector.getElem_map]
    simp only [Fin.getElem_fin] at least most
    unfold clampTrim clampInt
    omega
  have three : t.expo.map (clampNat 1 255) = t.expo := Vector.ext fun k below => by
    obtain ⟨-, -, least, most⟩ := lens ⟨k, below⟩
    rw [Vector.getElem_map]
    simp only [Fin.getElem_fin] at least most
    unfold clampNat
    omega
  rw [Trims.clamped, one, two, three]

theorem loadSettingsRegion_valid {s : State} {r : SettingsRegion} (image : r.contents = settingsImage s)
    (valid : regionValid r.sum r.check (Config.settingsBytes r.contents) = true) (settings : SettingsSound s.settings)
    (dir : DirectorySound s.dir) (trims : TrimsSound s.imaging.written) :
    loadSettingsRegion r = ⟨s.settings, s.dir, s.imaging.written⟩ := by
  obtain ⟨inRange, distinct, tables⟩ := dir
  have widths : s.dir.tables.map loadTable = s.dir.tables := Vector.ext fun k below => by
    rw [Vector.getElem_map]
    exact loadTable_sound (tables ⟨k, below⟩)
  rw [loadSettingsRegion, if_pos valid, image]
  simp only [settingsImage, loadSettings_image settings, loadDescriptors_sound inRange distinct, widths,
    clamped_sound trims]

theorem loadSettingsRegion_invalid {r : SettingsRegion}
    (bad : regionValid r.sum r.check (Config.settingsBytes r.contents) = false) :
    loadSettingsRegion r = ⟨Config.settings, Config.emptyDirectory, Config.trims⟩ := by
  rw [loadSettingsRegion, if_neg (by rw [bad]; exact Bool.false_ne_true)]

/-! ## The dictionary loaded (R184) -/

/-- Entries in the buckets of their words, each bucket in the order of the list. -/
def inBuckets (es : List DictEntry) : Dictionary := Vector.ofFn fun b => es.filter fun e => decide (bucketOf e.word = b)

theorem inBuckets_get (es : List DictEntry) (b : Fin 256) :
    (inBuckets es)[b] = es.filter fun e => decide (bucketOf e.word = b) := by
  simp [inBuckets]

theorem inBuckets_nil : inBuckets [] = Config.emptyDictionary := Vector.ext fun k below => by
  simp [inBuckets, Config.emptyDictionary]

theorem inBuckets_concat (es : List DictEntry) (e : DictEntry) :
    put (inBuckets es) (bucketOf e.word) ((inBuckets es)[bucketOf e.word] ++ [e]) = inBuckets (es ++ [e]) := by
  refine Vector.ext fun k below => ?_
  show (put _ _ _)[(⟨k, below⟩ : Fin 256)] = (inBuckets (es ++ [e]))[(⟨k, below⟩ : Fin 256)]
  rw [put_entry, inBuckets_get, inBuckets_get, inBuckets_get, List.filter_append]
  split
  · rename_i same
    simp [same]
  · rename_i other
    simp [Ne.symm other]

/-- An entry that keeps the rules of DICT-ADD, of a new word (R130). -/
def Restorable (done : List DictEntry) (e : DictEntry) : Prop :=
  validWord e.word = true ∧ foldWord e.word = e.word ∧ validBreaks e.word.length e.breaks = true ∧
    (∀ x ∈ done, x.word ≠ e.word) ∧ done.length < Config.maxEntries

theorem restoreEntry_new {done : List DictEntry} {e : DictEntry} (new : Restorable done e) :
    restoreEntry (inBuckets done, done.length) e = (inBuckets (done ++ [e]), (done ++ [e]).length) := by
  obtain ⟨word, folded, breaks, absent, room⟩ := new
  have none : (lookupWord (inBuckets done) e.word).isNone = true := by
    refine (lookupWord_isNone _ _).2 fun x member => absent x ?_
    rw [inBuckets_get] at member
    exact List.mem_of_mem_filter member
  simp only [restoreEntry, folded, word, breaks, none, room, decide_true, Bool.and_self, if_true, inBuckets_concat,
    List.length_append, List.length_singleton]

theorem foldl_restoreEntry {es : List DictEntry} (rest done : List DictEntry) (all : done ++ rest = es)
    (words : ∀ e ∈ es, validWord e.word = true ∧ foldWord e.word = e.word ∧ validBreaks e.word.length e.breaks = true)
    (once : (es.map (·.word)).Nodup) (room : es.length ≤ Config.maxEntries) :
    rest.foldl restoreEntry (inBuckets done, done.length) = (inBuckets es, es.length) := by
  induction rest generalizing done with
  | nil => rw [← all, List.append_nil]; rfl
  | cons e rest ih =>
    obtain ⟨word, folded, breaks⟩ := words e (by rw [← all]; simp)
    have new : ∀ x ∈ done, x.word ≠ e.word := by
      rw [← all, List.map_append, List.nodup_append] at once
      exact fun x member => once.2.2 _ (List.mem_map_of_mem member) _ (List.mem_map_of_mem List.mem_cons_self)
    have less : done.length < Config.maxEntries := by
      have length := congrArg List.length all
      rw [List.length_append, List.length_cons] at length
      omega
    rw [List.foldl_cons, restoreEntry_new ⟨word, folded, breaks, new, less⟩]
    exact ih (done ++ [e]) (by rw [List.append_assoc]; exact all)

theorem flatMap_only {α β : Type} {l : List α} {b : α} {f : α → List β} (once : l.Nodup) (member : b ∈ l)
    (others : ∀ i ∈ l, i ≠ b → f i = []) : l.flatMap f = f b := by
  induction l with
  | nil => cases member
  | cons x rest ih =>
    obtain ⟨new, rest_once⟩ := List.nodup_cons.1 once
    rw [List.flatMap_cons]
    rcases List.mem_cons.1 member with rfl | member
    · have none : rest.flatMap f = [] := List.flatMap_eq_nil_iff.2 fun i hi =>
        others i (List.mem_cons_of_mem _ hi) fun same => new (same ▸ hi)
      rw [none, List.append_nil]
    · rw [others x List.mem_cons_self (fun same => new (same ▸ member)), List.nil_append]
      exact ih rest_once member fun i hi => others i (List.mem_cons_of_mem _ hi)

section

variable {d : Dictionary} (chains : ChainsSound d)
include chains

theorem inBuckets_flatten : inBuckets d.toList.flatten = d := by
  suffices at_ : ∀ b : Fin 256, (inBuckets d.toList.flatten)[b] = d[b] from
    Vector.ext fun k below => at_ ⟨k, below⟩
  intro b
  have inBucket (i : Fin 256) : d[i].filter (fun e => decide (bucketOf e.word = b)) = if i = b then d[i] else [] := by
    obtain ⟨hash, -⟩ := chains i
    split
    · rename_i same
      exact List.filter_eq_self.2 fun e member => decide_eq_true ((hash e member).trans same)
    · rename_i other
      exact List.filter_eq_nil_iff.2 fun e member is =>
        other ((hash e member).symm.trans (of_decide_eq_true is))
  rw [inBuckets_get, toList_eq_map, ← List.flatMap_def, List.filter_flatMap]
  simp only [inBucket]
  rw [flatMap_only (b := b) (List.nodup_finRange 256) (List.mem_finRange b) fun i _ other => if_neg other, if_pos rfl]

theorem words_once : (d.toList.flatten.map (·.word)).Nodup := by
  rw [toList_eq_map, ← List.flatMap_def, List.map_flatMap, List.nodup_flatMap]
  refine ⟨fun b _ => (chains b).2, ?_⟩
  refine (List.nodup_finRange 256).imp fun {a b} other => ?_
  intro w inA inB
  obtain ⟨x, hx, rfl⟩ := List.mem_map.1 inA
  obtain ⟨y, hy, same⟩ := List.mem_map.1 inB
  exact other (((chains a).1 x hx).symm.trans ((congrArg bucketOf same.symm).trans ((chains b).1 y hy)))

/-- Chains that keep the rules come back as they stood. -/
theorem restoreDict_sound (words : WordsSound d) (room : dictCount d ≤ Config.maxEntries) : restoreDict d = d := by
  have length : d.toList.flatten.length ≤ Config.maxEntries := by
    rw [List.length_flatten]
    exact room
  have valid : ∀ e ∈ d.toList.flatten,
      validWord e.word = true ∧ foldWord e.word = e.word ∧ validBreaks e.word.length e.breaks = true := by
    intro e member
    rw [toList_eq_map, ← List.flatMap_def] at member
    obtain ⟨b, -, inB⟩ := List.mem_flatMap.1 member
    exact words b e inB
  have folded := foldl_restoreEntry d.toList.flatten [] (List.nil_append _) valid (words_once chains) length
  rw [inBuckets_nil] at folded
  rw [restoreDict]
  exact (congrArg Prod.fst folded).trans (inBuckets_flatten chains)

end

/-! ## RESET (R160, R187) -/

theorem sum16_toNat (bytes : List Byte) : (sum16 bytes).toNat = (bytes.map (·.toNat)).sum % 65536 := by
  have from_ (a : BitVec 16) : (bytes.foldl (fun a b => a + b.setWidth 16) a).toNat =
      (a.toNat + (bytes.map (·.toNat)).sum) % 65536 := by
    induction bytes generalizing a with
    | nil => simp [Nat.mod_eq_of_lt a.isLt]
    | cons b rest ih =>
      rw [List.foldl_cons, ih, List.map_cons, List.sum_cons, BitVec.toNat_add, BitVec.toNat_setWidth]
      omega
  simpa [sum16] using from_ 0

theorem startUp_reset : startUp State.reset = State.reset := by
  have settings : loadSettingsRegion State.reset.serial.settings = ⟨Config.settings, Config.emptyDirectory, Config.trims⟩ :=
    loadSettingsRegion_invalid rfl
  have dict : loadDictRegion State.reset.serial.dict = Config.emptyDictionary := if_neg Bool.false_ne_true
  rw [startUp, settings, dict]
  rfl

/-- Settles O33: what RESET leaves, what comes from the regions, and the state right after reset. -/
theorem resetStartsUp : Obligations.ResetStartsUp := by
  refine ⟨fun s => ⟨startUp s, rfl, ?start⟩, ?valid, fun r bad => ?invalid, fun r bad b => ?noEntries,
    fun s r => loadSettingsRegion_valid, fun s r image valid sound words => ?entries, ?again⟩
  case start =>
    refine ⟨rfl, rfl, rfl, rfl, rfl, fun d => ?_, ?_, fun b => ?_, rfl, fun j => ?_, rfl, fun p => ?_, rfl, rfl, rfl, rfl,
      rfl, rfl, ⟨rfl, rfl, rfl, rfl, rfl, rfl, rfl, rfl, rfl, rfl, rfl, rfl, rfl, rfl, rfl, rfl⟩,
      ⟨rfl, rfl, rfl, rfl, rfl, rfl, rfl, rfl, rfl, rfl, rfl, rfl, rfl, rfl⟩,
      ⟨rfl, rfl, rfl, rfl, rfl, rfl, rfl, rfl, rfl, rfl⟩, rfl⟩
    · fin_cases d <;> rfl
    · rw [List.range_eq_range']
      exact List.append_nil _
    · show (if b + 1 < 2048 then some (b + 1) else none) = _
      exact if_congr (by omega) rfl rfl
    · simp [startUp]
    · simp [startUp, MountTable.start]
  case valid =>
    intro sum check bytes
    have total : sum = sum16 bytes ↔ sum.toNat = (bytes.map (·.toNat)).sum % 65536 := by
      rw [← BitVec.toNat_inj, sum16_toNat]
    rw [regionValid, Bool.and_eq_true, decide_eq_true_eq, decide_eq_true_eq, total]
  case invalid =>
    rw [loadSettingsRegion_invalid bad]
    refine ⟨by decide, fun n => ?_, fun k => ?_, fun k => ?_, fun p => ?_⟩
    all_goals simp [Config.emptyDirectory, Config.trims, Config.noName]
  case noEntries =>
    rw [loadDictRegion, if_neg (by rw [bad]; exact Bool.false_ne_true)]
    simp [Config.emptyDictionary]
  case entries =>
    obtain ⟨room, chains⟩ := (dictionarySound_iff s).1 sound
    rw [loadDictRegion, if_pos valid, image]
    exact restoreDict_sound chains words room
  case again =>
    rw [exec_reset, startUp_reset]

/-- Settles O59: an empty machine on a blank serial memory. -/
theorem invariantsAtReset : Obligations.InvariantsAtReset := by
  have mounted : MountedOnce State.reset := startUp_reset ▸ mountedOnce_start State.reset
  refine ⟨ordered_default, distinctStrips_empty, ⟨dictCount_empty.le.trans (Nat.zero_le _), chainsSound_empty⟩, rfl,
    (galleySound_iff _).2 ⟨_, galley_start⟩, mounted, ?film, mounted, ?pins, ?buffer, ?sequencer, ?take⟩
  case film => exact ⟨Nat.le_refl 0, Nat.le_refl 0, Nat.le_refl 0⟩
  case pins =>
    refine ⟨fun p => ?_, fun r member => by cases member⟩
    simp [State.reset, MountTable.start]
  case buffer => exact ⟨Nat.zero_le _, nofun, Nat.zero_le _, Nat.zero_le _⟩
  case sequencer =>
    refine ⟨fun _ r member => (by cases member), nofun, nofun, nofun, fun _ _ => .inr rfl, nofun, nofun, fun _ => rfl⟩
  case take => exact ⟨Nat.zero_le _, fun _ r member => by cases member⟩

end Sys2Proof.Proofs

/-! PROOFS. The job code (01): the commands, the reader and the bytes of the text (O44). -/

namespace Sys2Proof.Proofs

open Sys2Proof.Machine

/-! ## Arguments (R7) -/

theorem argAt_eq (args : List (Option Nat)) (k : Nat) : argAt args k = args.getD k none := by
  rw [argAt, List.getD_eq_getElem?_getD]
  cases args[k]? <;> rfl

theorem argOf_eq (digits value : Nat) :
    argOf digits value =
      if digits = 0 then none else if 5 < digits ∨ 65535 < value then some 65535 else some value := by
  unfold argOf Config.max16
  by_cases none_ : digits = 0
  · rw [if_pos none_, if_pos none_]
  · rw [if_neg none_, if_neg none_]
    by_cases long : 5 < digits
    · rw [if_pos long, if_pos (.inl long)]
    · rw [if_neg long]
      by_cases large : 65535 < value
      · rw [if_pos (.inr large), Nat.min_eq_left (Nat.le_of_lt large)]
      · rw [if_neg (by simp [long, large]), Nat.min_eq_right (Nat.not_lt.1 large)]

/-- A field set by an argument takes its value, or stays. -/
theorem withArg_field {α : Type} (a : Option Nat) (conv : Nat → α) (get : Format → α) (set : α → Format → Format)
    (t : Format) (same : set (get t) t = t) :
    withArg a (fun n => set (conv n)) t = set ((a.map conv).getD (get t)) t := by
  cases a with
  | none => exact same.symm
  | some n => rfl

theorem alignOf_eq (n : Nat) : alignOf n =
    if n = 0 then .justify else if n = 1 then .left else if n = 2 then .right else .center := by
  match n with
  | 0 => rfl
  | 1 => rfl
  | 2 => rfl
  | n + 3 => rfl

theorem roundingOf_eq (n : Nat) : roundingOf n =
    if n = 0 then .nearestEven else if n = 1 then .nearestUp else if n = 2 then .down else .up := by
  match n with
  | 0 => rfl
  | 1 => rfl
  | 2 => rfl
  | n + 3 => rfl

theorem withIndent_within (n : Nat) (f : Format) :
    f.withIndent (2 * min n ((f.measure - 360) / 2)) = { f with indent := 2 * min n ((f.measure - 360) / 2) } := by
  have fits : 2 * min n ((f.measure - 360) / 2) ≤ f.measure - 360 := by omega
  rw [Format.withIndent, Nat.min_eq_left fits]

/-! ## Command letters and exception letters (R8, R19) -/

/-- The commands with digit arguments, by their letters. -/
def digitCommands : List (Byte × Letter) :=
  [(0x46, .f), (0x53, .s), (0x4C, .l), (0x4D, .m), (0x49, .i), (0x41, .a), (0x57, .w), (0x48, .h), (0x52, .r),
   (0x56, .v), (0x43, .c)]

/-- The exceptions, by their letters. -/
def excLetters : List (Byte × Exc) := [(0x4C, .loose), (0x4F, .overset), (0x48, .ladder), (0x4E, .nobreak), (0x4D, .missing)]

theorem letterOf_some {c : Byte} {cmd : Letter} (is : letterOf c = some cmd) : (c, cmd) ∈ (0x58, Letter.x) :: digitCommands := by
  unfold letterOf at is
  split at is
  case h_13 => cases is
  all_goals
    rename_i code
    cases is
    simp [digitCommands, ← BitVec.toNat_inj, code]

theorem letterOf_none {c : Byte} (notX : c ≠ 0x58) (others : ∀ cmd, (c, cmd) ∉ digitCommands) : letterOf c = none := by
  cases is : letterOf c with
  | none => rfl
  | some cmd =>
    rcases List.mem_cons.1 (letterOf_some is) with x | member
    · exact absurd (congrArg Prod.fst x) notX
    · exact absurd member (others cmd)

theorem letterOf_command {c : Byte} {cmd : Letter} (member : (c, cmd) ∈ digitCommands) : letterOf c = some cmd ∧ cmd ≠ .x := by
  have all : ∀ p ∈ digitCommands, letterOf p.1 = some p.2 ∧ p.2 ≠ .x := by decide
  exact all (c, cmd) member

theorem letterByte_command {c : Byte} {cmd : Letter} (b : Build) (esc : Nat) (member : (c, cmd) ∈ digitCommands) :
    letterByte b esc c = .go { b with reading := .args esc cmd [] 0 0 } := by
  obtain ⟨is, notX⟩ := letterOf_command member
  rw [letterByte, is]
  cases cmd with
  | x => exact absurd rfl notX
  | _ => rfl

theorem excOf_some {c : Byte} {k : Exc} (is : excOf c = some k) : (c, k) ∈ excLetters := by
  unfold excOf at is
  split at is
  case h_6 => cases is
  all_goals
    rename_i code
    cases is
    simp [excLetters, ← BitVec.toNat_inj, code]

theorem excOf_letter {c : Byte} {k : Exc} (member : (c, k) ∈ excLetters) :
    excOf c = some k ∧ c.toNat ≠ 0x3B ∧ c.toNat ≠ 0x2C := by
  have all : ∀ p ∈ excLetters, excOf p.1 = some p.2 ∧ p.1.toNat ≠ 0x3B ∧ p.1.toNat ≠ 0x2C := by decide
  exact all (c, k) member

theorem toNat_ne {c k : Byte} (other : c ≠ k) : c.toNat ≠ k.toNat := fun same => other (BitVec.eq_of_toNat_eq same)

/-! ## The bytes of the text (R2, R3, R81) -/

/-- A byte that needs the font in force: taken where the line has selected the font, or its line-start check passes
(R81). -/
def withFont (s : State) (j : Job) (b : Build) (go : Progress) : Progress :=
  if b.checked = true then go
  else
    match lineStartCheck s b.ctx.fmt.font j.level j.imagingDue with
    | .pass .. => go
    | .fontRange => .stop ⟨.fault .fontRange (b.ctx.offset - 1), b.exc⟩
    | .fontDenied => .stop ⟨.fault .fontDenied (b.ctx.offset - 1), b.exc⟩
    | .wait g => .stop ⟨.wait g, b.exc⟩

theorem startCheck_checked {b : Build} (s : State) (j : Job) (checked : b.checked = true) : startCheck s j b = none :=
  if_pos checked

theorem startCheck_unchecked {b : Build} (s : State) (j : Job) (unchecked : ¬ b.checked = true) :
    startCheck s j b = (lineStartCheck s b.ctx.fmt.font j.level j.imagingDue).stop (b.ctx.offset - 1) :=
  if_neg unchecked

theorem glyphByte_eq (s : State) (j : Job) (b : Build) (c : Byte) :
    glyphByte s j b c = withFont s j b (measureGlyph s j { b.takeShape with checked := true } c) := by
  unfold glyphByte withFont
  by_cases checked : b.checked = true
  · rw [startCheck_checked s j checked, if_pos checked]
  · rw [startCheck_unchecked s j checked, if_neg checked]
    cases lineStartCheck s b.ctx.fmt.font j.level j.imagingDue <;> rfl

theorem fixedByte_eq (s : State) (j : Job) (b : Build) :
    fixedByte s j b = withFont s j b
      (.go ({ b.takeShape with checked := true }.addPiece (.fixed (5 * b.takeShape.ctx.fmt.spNorm * b.takeShape.ctx.fmt.size)))) := by
  unfold fixedByte withFont
  by_cases checked : b.checked = true
  · rw [startCheck_checked s j checked, if_pos checked]
  · rw [startCheck_unchecked s j checked, if_neg checked]
    cases lineStartCheck s b.ctx.fmt.font j.level j.imagingDue <;> rfl

theorem takeShape_some {b : Build} {sh : Shape} (shaped : b.shape = some sh) : b.takeShape = b := by
  simp only [Build.takeShape, shaped]

theorem takeShape_none {b : Build} (unshaped : b.shape = none) :
    b.takeShape =
      { b with
        shape := some ⟨b.ctx.fmt.measure, b.ctx.fmt.indent, b.ctx.fmt.align, b.ctx.fmt.rounding, b.ctx.fmt.leading,
          b.ctx.pendingV⟩
        ctx := { b.ctx with pendingV := 0 } } := by
  simp only [Build.takeShape, unshaped]

/-! ## The reader (R7, R8) -/

theorem readByte_letter {b : Build} {esc : Nat} (s : State) (j : Job) (c : Byte) (at_ : b.reading = .letter esc) :
    readByte s j b c = letterByte b.advance esc c := by
  have advanced : b.advance.reading = .letter esc := at_
  simp only [readByte, advanced]

theorem readByte_args {b : Build} {esc : Nat} {cmd : Letter} {done : List (Option Nat)} {digits value : Nat} (s : State)
    (j : Job) (c : Byte) (at_ : b.reading = .args esc cmd done digits value) :
    readByte s j b c = argByte s j b.advance esc cmd done digits value c := by
  have advanced : b.advance.reading = .args esc cmd done digits value := at_
  simp only [readByte, advanced]

theorem readByte_letters {b : Build} {esc : Nat} {set : ExcSet} (s : State) (j : Job) (c : Byte)
    (at_ : b.reading = .letters esc set) : readByte s j b c = maskByte b.advance esc set c := by
  have advanced : b.advance.reading = .letters esc set := at_
  simp only [readByte, advanced]

/-- Settles O44: the commands' effects, and the reader byte by byte. -/
theorem alignmentAndRoundingSet : Obligations.AlignmentAndRoundingSet := by
  refine ⟨?commands, ?reader⟩
  case commands =>
    intro s j b esc args f arg a0 a1 a2 a3 run set min48 norm size
    have first : argAt args 0 = a0 := argAt_eq args 0
    have second : argAt args 1 = a1 := argAt_eq args 1
    have third : argAt args 2 = a2 := argAt_eq args 2
    have fourth : argAt args 3 = a3 := argAt_eq args 3
    have snapped (n : Nat) : snapSize n = size n := snapSize_eq n
    refine ⟨fun empty cmd member => ?_, fun n given => ⟨?_, ?_, ?_, ?_, ?_, ?_, ?_, ?_⟩, ?_, ?_, rfl⟩
    · simp only [List.mem_cons, List.not_mem_nil, or_false] at member
      rcases member with rfl | rfl | rfl | rfl | rfl | rfl | rfl | rfl
      all_goals
        simp only [run, runCommand, Format.command, first, empty, withArg]
        rfl
    · simp only [run, runCommand, Format.command, first, given, withArg, Format.withSize, snapped]
      rfl
    · simp only [run, runCommand, Format.command, first, given, withArg]
      rfl
    · simp only [run, runCommand, Format.command, first, given, withArg]
      rfl
    · simp only [run, runCommand, Format.command, first, given, withArg, withIndent_within]
      rfl
    · simp only [run, runCommand, Format.command, first, given, withArg, alignOf_eq]
      rfl
    · simp only [run, runCommand, Format.command, first, given, withArg, roundingOf_eq]
      rfl
    · simp only [run, runCommand, first, given]
      rfl
    · simp only [run, runCommand, first, given, selectFont]
      cases accessCheck s n j.level j.imagingDue with
      | pass font z l =>
        have sized : withArg z Format.withSize { f with font := font } =
            { f with font := font, size := (z.map size).getD f.size } := by
          rw [← funext snapped]
          exact withArg_field z snapSize (·.size) (fun v g => { g with size := v }) _ rfl
        have led (g : Format) : withArg l Format.withLeading g = { g with leading := (l.map (min 999)).getD g.leading } :=
          withArg_field l (min 999) (·.leading) (fun v g => { g with leading := v }) _ rfl
        simp only [led, f] at sized ⊢
        rw [sized]
      | _ => rfl
    · have least (g : Format) : withArg a0 (fun n f => { f with spMin := min 48 n }) g = { g with spMin := min48 a0 g.spMin } :=
        withArg_field a0 (min 48) (·.spMin) (fun v g => { g with spMin := v }) g rfl
      have normal (g : Format) : withArg a1 (fun n f => { f with spNorm := min 48 n }) g = { g with spNorm := min48 a1 g.spNorm } :=
        withArg_field a1 (min 48) (·.spNorm) (fun v g => { g with spNorm := v }) g rfl
      have most (g : Format) : withArg a2 (fun n f => { f with spMax := min 48 n }) g = { g with spMax := min48 a2 g.spMax } :=
        withArg_field a2 (min 48) (·.spMax) (fun v g => { g with spMax := v }) g rfl
      simp only [run, runCommand, Format.command, first, second, third, least, normal, most]
      rfl
    · have on (g : Format) := withArg_field a0 (fun n => decide (n ≠ 0)) (·.hyphenation) (fun v g => { g with hyphenation := v }) g rfl
      have before (g : Format) := withArg_field a1 (clampNat 1 5) (·.minBefore) (fun v g => { g with minBefore := v }) g rfl
      have after (g : Format) := withArg_field a2 (clampNat 2 5) (·.minAfter) (fun v g => { g with minAfter := v }) g rfl
      have limit (g : Format) := withArg_field a3 (min 9) (·.ladder) (fun v g => { g with ladder := v }) g rfl
      simp only [run, runCommand, Format.command, first, second, third, fourth, on, before, after, limit]
      rfl
  case reader =>
    intro s j b c next read broken letters kinds answer
    refine ⟨fun outside is => ?_, fun outside => ?text, fun esc at_ => ⟨fun cmd member => ?_, fun is => ?_, fun notX others => ?_⟩,
      fun esc cmd done digits value at_ => ?args, fun esc set at_ => ⟨fun is => ?_, fun is => ?_, fun k member => ?_,
      fun notEnd notComma others => ?_⟩, ?ends, fun sh shaped => takeShape_some shaped⟩
    case text =>
      intro f shaped piece begun
      have answered : answer = textByte s j b.advance c := readByte_of_text s j b c outside
      have kept : next.reading = .text := outside
      have taken : { b.advance.takeShape with checked := true } = shaped := by
        simp only [shaped, Build.takeShape, Build.advance]
        cases b.shape <;> rfl
      have begins (go : Progress) : withFont s j b.advance go = begun go := rfl
      have spaces : b.advance.takeShape.ctx.fmt = f := by
        simp only [Build.takeShape, Build.advance]
        cases b.shape <;> rfl
      rw [answered]
      refine ⟨fun is => ?_, fun is => ?_, fun is => ?_, fun is => ?_, fun is => ?_, fun low high => ?_⟩
      · rw [is]; rfl
      · rw [is]; rfl
      · rw [is, ← begins]
        refine (fixedByte_eq s j b.advance).trans ?_
        rw [spaces, taken]
        rfl
      · rw [is]; rfl
      · rw [is]; rfl
      · rw [← begins, ← taken, ← glyphByte_eq, textByte, if_neg (by omega), if_neg (by omega), if_neg (by omega),
          if_neg (by omega), if_neg (by omega), if_neg (by omega), if_pos ⟨low, high⟩]
    case args =>
      intro arg
      have spelled : argOf digits value = arg := argOf_eq digits value
      rw [show answer = argByte s j b.advance esc cmd done digits value c from readByte_args s j c at_, argByte, spelled]
      refine ⟨fun is => ?_, fun is => ?_, fun low high => ?_, fun notEnd notComma outside => ?_⟩
      · rw [is]; rfl
      · rw [is]; rfl
      · rw [if_neg (by omega), if_neg (by omega), if_pos ⟨low, high⟩]
        rfl
      · rw [if_neg (show c.toNat ≠ 0x3B from toNat_ne notEnd),
          if_neg (show c.toNat ≠ 0x2C from toNat_ne notComma), if_neg (by omega)]
        rfl
    case ends =>
      intro esc cmd done digits value set inside
      rcases inside with at_ | at_ | at_
      all_goals
        simp only [endOfText, at_]
        rfl
    · rw [show answer = textByte s j b.advance c from readByte_of_text s j b c outside, is]
      rfl
    · rw [show answer = letterByte b.advance esc c from readByte_letter s j c at_, letterByte_command _ _ member]
      rfl
    · rw [show answer = letterByte b.advance esc c from readByte_letter s j c at_, is]
      rfl
    · rw [show answer = letterByte b.advance esc c from readByte_letter s j c at_, letterByte, letterOf_none notX others]
      rfl
    all_goals rw [show answer = maskByte b.advance esc set c from readByte_letters s j c at_, maskByte]
    · rw [is]; rfl
    · rw [is]; rfl
    · obtain ⟨names, notEnd, notComma⟩ := excOf_letter member
      rw [if_neg notEnd, if_neg notComma, names]
      rfl
    · have none : excOf c = none := by
        cases is : excOf c with
        | none => rfl
        | some k => exact absurd (excOf_some is) (others k)
      rw [if_neg (show c.toNat ≠ 0x3B from toNat_ne notEnd),
          if_neg (show c.toNat ≠ 0x2C from toNat_ne notComma), none]
      rfl

end Sys2Proof.Proofs

/-! PROOFS. Justification and placement (06): the spaces of a line, its offset, the left edges and the set steps
(O45, O47). -/

namespace Sys2Proof.Proofs

open Sys2Proof.Machine

/-! ## Units one each from the left (R110, R112) -/

theorem mapIdx_const {α β : Type} (f : α → β) (l : List α) : l.mapIdx (fun _ q => f q) = l.map f :=
  List.ext_getElem (by simp) (by simp)

/-- The first widths with room take the units, one each. -/
theorem giveUnits_eq_mapIdx {α : Type} (width : α → Nat) (room : α → Bool) (l : List α) (n : Nat) :
    giveUnits n (l.map fun q => (width q, room q)) =
      l.mapIdx fun i q => width q + if room q = true ∧ (l.take i).countP room < n then 1 else 0 := by
  induction l generalizing n with
  | nil => rfl
  | cons q rest ih =>
    rw [List.map_cons, List.mapIdx_cons]
    cases has : room q with
    | false =>
      rw [giveUnits_cons_full, ih]
      simp [has]
    | true =>
      cases n with
      | zero => simp [Function.comp_def, mapIdx_const]
      | succ n =>
        rw [giveUnits_succ_cons_room, ih]
        simp [has]

theorem takeUnits_cons_full (n w : Nat) (rest : List (Nat × Bool)) :
    takeUnits n ((w, false) :: rest) = w :: takeUnits n rest := by
  rw [takeUnits, Bool.false_and, if_neg Bool.false_ne_true]

theorem takeUnits_succ_cons_room (n w : Nat) (rest : List (Nat × Bool)) :
    takeUnits (n + 1) ((w, true) :: rest) = (w - 1) :: takeUnits n rest := by
  simp [takeUnits]

theorem takeUnits_zero (l : List (Nat × Bool)) : takeUnits 0 l = l.map (·.1) := by
  induction l with
  | nil => rfl
  | cons entry rest ih => simp [takeUnits, ih]

/-- The first widths with room give the units, one each. -/
theorem takeUnits_eq_mapIdx {α : Type} (width : α → Nat) (room : α → Bool) (l : List α) (n : Nat) :
    takeUnits n (l.map fun q => (width q, room q)) =
      l.mapIdx fun i q => width q - if room q = true ∧ (l.take i).countP room < n then 1 else 0 := by
  induction l generalizing n with
  | nil => rfl
  | cons q rest ih =>
    rw [List.map_cons, List.mapIdx_cons]
    cases has : room q with
    | false =>
      rw [takeUnits_cons_full, ih]
      simp [has]
    | true =>
      cases n with
      | zero => simp [takeUnits_zero, Function.comp_def, mapIdx_const]
      | succ n =>
        rw [takeUnits_succ_cons_room, ih]
        simp [has]

/-- Units that do not outnumber the widths with room are all given up. -/
theorem sum_takeUnits (l : List (Nat × Bool)) (n : Nat) (enough : n ≤ l.countP (·.2))
    (room : ∀ p ∈ l, p.2 = true → 0 < p.1) : (takeUnits n l).sum + n = (l.map (·.1)).sum := by
  induction l generalizing n with
  | nil => simpa [takeUnits] using enough
  | cons entry rest ih =>
    obtain ⟨w, has⟩ := entry
    have others := fun p hp => room p (List.mem_cons_of_mem _ hp)
    match has, n with
    | false, n =>
      have left := ih n (by simpa using enough) others
      simp only [takeUnits_cons_full, List.map_cons, List.sum_cons]
      omega
    | true, 0 => simp [takeUnits_zero]
    | true, n + 1 =>
      have left := ih n (by simpa using enough) others
      have some_ : 0 < w := room _ List.mem_cons_self rfl
      simp only [takeUnits_succ_cons_room, List.map_cons, List.sum_cons]
      omega

/-! ## Shares in proportion to capacity (R110, R112) -/

section

variable {α : Type} (cap : α → Nat) (amount total : Nat)

/-- The shares and what the divisions leave come to the amount's part of the capacities. -/
theorem sum_shares (l : List α) :
    amount * (l.map cap).sum =
      total * (l.map fun q => share amount (cap q) total).sum + (l.map fun q => amount * cap q % total).sum := by
  induction l with
  | nil => rfl
  | cons q rest ih =>
    have one := Nat.div_add_mod (amount * cap q) total
    simp only [List.map_cons, List.sum_cons, Nat.mul_add, ih, share] at one ⊢
    omega

variable (within : amount ≤ total)
include within

theorem share_le (q : α) : share amount (cap q) total ≤ cap q := by
  rcases Nat.eq_zero_or_pos total with zero | pos
  · simp [share, zero]
  · exact Nat.div_le_of_le_mul (Nat.mul_le_mul_right _ within)

/-- A space at its full share leaves nothing, and any other less than the total. -/
theorem sum_left_le (pos : 0 < total) (l : List α) :
    (l.map fun q => amount * cap q % total).sum ≤
      total * l.countP fun q => decide (share amount (cap q) total < cap q) := by
  induction l with
  | nil => exact Nat.zero_le _
  | cons q rest ih =>
    rw [List.map_cons, List.sum_cons, List.countP_cons]
    have le := share_le cap amount total within q
    have less := Nat.mod_lt (amount * cap q) pos
    split
    · rw [Nat.mul_add]
      omega
    · rename_i full
      rw [Nat.add_zero]
      have same : share amount (cap q) total = cap q := by
        simp only [decide_eq_true_eq] at full
        omega
      have whole := Nat.div_add_mod (amount * cap q) total
      have most : amount * cap q ≤ total * cap q := Nat.mul_le_mul_right _ within
      rw [show amount * cap q / total = cap q from same] at whole
      omega

/-- The leftover is no more than the spaces with room, and the shares no more than the amount. -/
theorem leftover_le (l : List α) (is : (l.map cap).sum = total) :
    (l.map fun q => share amount (cap q) total).sum ≤ amount ∧
      amount - (l.map fun q => share amount (cap q) total).sum ≤
        l.countP fun q => decide (share amount (cap q) total < cap q) := by
  have all := sum_shares cap amount total l
  rw [is] at all
  rcases Nat.eq_zero_or_pos total with zero | pos
  · have none : amount = 0 := by omega
    have shares : (l.map fun q => share amount (cap q) total).sum = 0 := by
      simp [share, none]
    rw [shares, none]
    exact ⟨Nat.le_refl 0, Nat.zero_le _⟩
  · have left := sum_left_le cap amount total within pos l
    generalize (l.map fun q => share amount (cap q) total).sum = shares at all ⊢
    generalize (l.countP fun q => decide (share amount (cap q) total < cap q)) = count at left ⊢
    generalize (l.map fun q => amount * cap q % total).sum = rest at all left
    rw [Nat.mul_comm amount total] at all
    constructor
    · exact Nat.le_of_mul_le_mul_left (by omega : total * shares ≤ total * amount) pos
    · have : total * amount ≤ total * (shares + count) := by rw [Nat.mul_add]; omega
      have := Nat.le_of_mul_le_mul_left this pos
      omega

end

/-! ## Stretched and shrunk spaces (R110, R112) -/

/-- The spaces' widths stand in their order. -/
def Ordered (sp : List Space) : Prop := ∀ q ∈ sp, q.min ≤ q.norm ∧ q.norm ≤ q.max

theorem sum_stretchCap {sp : List Space} (ordered : Ordered sp) :
    (sp.map fun q => q.max - q.norm).sum = sumMax sp - sumNorm sp ∧ sumNorm sp ≤ sumMax sp := by
  unfold sumMax sumNorm
  induction sp with
  | nil => exact ⟨rfl, Nat.le_refl 0⟩
  | cons q rest ih =>
    obtain ⟨least, most⟩ := ordered q List.mem_cons_self
    obtain ⟨sum, le⟩ := ih fun x hx => ordered x (List.mem_cons_of_mem _ hx)
    simp only [List.map_cons, List.sum_cons]
    omega

theorem sum_shrinkCap {sp : List Space} (ordered : Ordered sp) :
    (sp.map fun q => q.norm - q.min).sum = sumNorm sp - sumMin sp ∧ sumMin sp ≤ sumNorm sp := by
  unfold sumMin sumNorm
  induction sp with
  | nil => exact ⟨rfl, Nat.le_refl 0⟩
  | cons q rest ih =>
    obtain ⟨least, most⟩ := ordered q List.mem_cons_self
    obtain ⟨sum, le⟩ := ih fun x hx => ordered x (List.mem_cons_of_mem _ hx)
    simp only [List.map_cons, List.sum_cons]
    omega

/-- What a stretched space takes above its norm. -/
def stretchShare (e : Nat) (sp : List Space) (q : Space) : Nat := share e (q.max - q.norm) (sumMax sp - sumNorm sp)

/-- What a shrunk space gives up. -/
def shrinkShare (lack : Nat) (sp : List Space) (q : Space) : Nat := share lack (q.norm - q.min) (sumNorm sp - sumMin sp)

theorem stretchShare_le {e : Nat} {sp : List Space} (within : e ≤ sumMax sp - sumNorm sp) (q : Space) :
    stretchShare e sp q ≤ q.max - q.norm := share_le (fun q : Space => q.max - q.norm) e _ within q

theorem shrinkShare_le {lack : Nat} {sp : List Space} (within : lack ≤ sumNorm sp - sumMin sp) (q : Space) :
    shrinkShare lack sp q ≤ q.norm - q.min := share_le (fun q : Space => q.norm - q.min) lack _ within q

theorem stretch_eq (e : Nat) (sp : List Space) :
    stretch e sp = giveUnits (e - (sp.map (stretchShare e sp)).sum)
      (sp.map fun q => (q.norm + stretchShare e sp q, decide (stretchShare e sp q < q.max - q.norm))) := rfl

theorem shrink_eq (lack : Nat) (sp : List Space) :
    shrink lack sp = takeUnits (lack - (sp.map (shrinkShare lack sp)).sum)
      (sp.map fun q => (q.norm - shrinkShare lack sp q, decide (shrinkShare lack sp q < q.norm - q.min))) := rfl

theorem stretch_eq_mapIdx (e : Nat) (sp : List Space) :
    stretch e sp = sp.mapIdx fun i q => q.norm + stretchShare e sp q +
      if decide (stretchShare e sp q < q.max - q.norm) = true ∧
        (sp.take i).countP (fun p => decide (stretchShare e sp p < p.max - p.norm)) <
          e - (sp.map (stretchShare e sp)).sum then 1 else 0 := by
  rw [stretch_eq, giveUnits_eq_mapIdx]

theorem shrink_eq_mapIdx (lack : Nat) (sp : List Space) :
    shrink lack sp = sp.mapIdx fun i q => q.norm - (shrinkShare lack sp q +
      if decide (shrinkShare lack sp q < q.norm - q.min) = true ∧
        (sp.take i).countP (fun p => decide (shrinkShare lack sp p < p.norm - p.min)) <
          lack - (sp.map (shrinkShare lack sp)).sum then 1 else 0) := by
  rw [shrink_eq, takeUnits_eq_mapIdx]
  simp only [Nat.sub_sub]

section

variable {sp : List Space} (ordered : Ordered sp)
include ordered

theorem sum_stretch {e : Nat} (within : e ≤ sumMax sp - sumNorm sp) : (stretch e sp).sum = sumNorm sp + e := by
  obtain ⟨total, -⟩ := sum_stretchCap ordered
  obtain ⟨shares, left⟩ := leftover_le (fun q : Space => q.max - q.norm) e _ within sp total
  rw [stretch_eq, sum_giveUnits _ _ (by rw [List.countP_map]; exact left), List.map_map]
  have widths : (sp.map ((·.1) ∘ fun q => (q.norm + stretchShare e sp q,
      decide (stretchShare e sp q < q.max - q.norm)))).sum = sumNorm sp + (sp.map (stretchShare e sp)).sum :=
    List.sum_map_add
  have shares : (sp.map (stretchShare e sp)).sum ≤ e := shares
  rw [widths]
  omega

theorem sum_shrink {lack : Nat} (within : lack ≤ sumNorm sp - sumMin sp) : (shrink lack sp).sum + lack = sumNorm sp := by
  obtain ⟨total, -⟩ := sum_shrinkCap ordered
  obtain ⟨shares, left⟩ := leftover_le (fun q : Space => q.norm - q.min) lack _ within sp total
  have room : ∀ p ∈ sp.map fun q => (q.norm - shrinkShare lack sp q, decide (shrinkShare lack sp q < q.norm - q.min)),
      p.2 = true → 0 < p.1 := by
    intro p hp
    obtain ⟨q, -, rfl⟩ := List.mem_map.1 hp
    simp only [decide_eq_true_eq]
    omega
  have all := sum_takeUnits _ (lack - (sp.map (shrinkShare lack sp)).sum) (by rw [List.countP_map]; exact left) room
  have widths : ((sp.map fun q => (q.norm - shrinkShare lack sp q,
      decide (shrinkShare lack sp q < q.norm - q.min))).map (·.1)).sum + (sp.map (shrinkShare lack sp)).sum = sumNorm sp := by
    rw [List.map_map, ← List.sum_map_add]
    refine congrArg List.sum (List.map_congr_left fun q _ => ?_)
    have le := shrinkShare_le within q
    show q.norm - shrinkShare lack sp q + shrinkShare lack sp q = q.norm
    omega
  rw [← shrink_eq] at all
  have shares : (sp.map (shrinkShare lack sp)).sum ≤ lack := shares
  change (shrink lack sp).sum + (lack - (sp.map (shrinkShare lack sp)).sum) = _ at all
  omega

end

theorem forall₂_mapIdx {α β : Type} {R : β → α → Prop} {l : List α} {f : Nat → α → β} (each : ∀ i, ∀ q ∈ l, R (f i q) q) :
    List.Forall₂ R (l.mapIdx f) l := by
  rw [List.forall₂_iff_get]
  refine ⟨by simp, fun i _ within => ?_⟩
  simpa using each i l[i] (List.getElem_mem within)

theorem stretch_within {e : Nat} {sp : List Space} (within : e ≤ sumMax sp - sumNorm sp) (ordered : Ordered sp) :
    List.Forall₂ (fun w (q : Space) => q.norm ≤ w ∧ w ≤ q.max) (stretch e sp) sp := by
  rw [stretch_eq_mapIdx]
  refine forall₂_mapIdx fun i q member => ?_
  obtain ⟨-, most⟩ := ordered q member
  have le := stretchShare_le within q
  split
  · rename_i more
    obtain ⟨less, -⟩ := more
    have less := of_decide_eq_true less
    omega
  · omega

theorem shrink_within {lack : Nat} {sp : List Space} (within : lack ≤ sumNorm sp - sumMin sp) (ordered : Ordered sp) :
    List.Forall₂ (fun w (q : Space) => q.min ≤ w ∧ w ≤ q.norm) (shrink lack sp) sp := by
  rw [shrink_eq_mapIdx]
  refine forall₂_mapIdx fun i q member => ?_
  obtain ⟨least, -⟩ := ordered q member
  have le := shrinkShare_le within q
  split
  · rename_i more
    obtain ⟨less, -⟩ := more
    have less := of_decide_eq_true less
    omega
  · omega

/-! ## A line set (R110 to R113) -/

section

variable {a : Machine.Alignment} {width glyphs : Nat} {sp : List Space}

theorem setLine_shrunk (spaced : sp ≠ []) (long : width < glyphs + sumNorm sp) :
    setLine a width glyphs sp = ⟨shrink (glyphs + sumNorm sp - width) sp, 0⟩ := by
  have negative : excess width glyphs sp < 0 := by unfold excess; omega
  have lack : (-excess width glyphs sp).toNat = glyphs + sumNorm sp - width := by unfold excess; omega
  simp only [setLine, List.isEmpty_iff, if_neg spaced, if_pos negative, lack]

theorem setLine_stretched (spaced : sp ≠ []) (ordered : Ordered sp) (short : glyphs + sumNorm sp ≤ width)
    (room : width ≤ glyphs + sumMax sp) :
    setLine .justify width glyphs sp = ⟨stretch (width - glyphs - sumNorm sp) sp, 0⟩ := by
  obtain ⟨-, le⟩ := sum_stretchCap ordered
  have positive : ¬ excess width glyphs sp < 0 := by unfold excess; omega
  have e : (excess width glyphs sp).toNat = width - glyphs - sumNorm sp := by unfold excess; omega
  simp only [setLine, List.isEmpty_iff, if_neg spaced, if_neg positive, e]
  exact if_pos (by omega)

theorem setLine_natural (free : a ≠ .justify) (short : glyphs + sumNorm sp ≤ width) :
    setLine a width glyphs sp = ⟨sp.map (·.norm), slackOffset a (width - glyphs - sumNorm sp)⟩ := by
  have positive : ¬ excess width glyphs sp < 0 := by unfold excess; omega
  have e : (excess width glyphs sp).toNat = width - glyphs - sumNorm sp := by unfold excess; omega
  cases sp with
  | nil => simp only [setLine, List.isEmpty_nil, if_true, e, List.map_nil]
  | cons q rest =>
    simp only [setLine, List.isEmpty_cons, Bool.false_eq_true, if_false, if_neg positive, e]

theorem setLine_wide (wide : width < glyphs) : setLine a width glyphs [] = ⟨[], 0⟩ := by
  have e : (excess width glyphs []).toNat = 0 := by
    unfold excess sumNorm
    simp only [List.map_nil, List.sum_nil]
    omega
  simp only [setLine, List.isEmpty_nil, if_true, e]
  cases a <;> rfl

end

/-! ## Placement (R114, R182) -/

/-- The pieces of a line one after another, none for an interword space. -/
def flatLine (ws : List LineWord) : List (Option Piece) :=
  ws.flatMap fun w => (w.before.toList.map fun _ => none) ++ w.items.map fun i => some i.piece

/-- An entry of a line is a glyph. -/
def isGlyphEntry (x : Option Piece) : Bool := (x.map Piece.isGlyph).getD false

/-- An entry of a line is an interword space or a fixed space. -/
def isSpaceEntry (x : Option Piece) : Bool :=
  match x with
  | none => true
  | some (.fixed _) => true
  | _ => false

/-- The width of an entry as measured; an interword space has none of its own. -/
def entryWidth (x : Option Piece) : Nat := (x.map Piece.width).getD 0

/-- The glyphs of a line's pieces from a left edge on, the interword spaces with the widths given (R114). -/
def placeFlat : Nat → Bool → List Nat → List (Option Piece) → List Placed
  | _, _, _, [] => []
  | x, _, ks, none :: r => placeFlat (x + ks.headD 0) true ks.tail r
  | x, sp, ks, some (.glyph g) :: r => ⟨g, x, sp⟩ :: placeFlat (x + g.width) false ks r
  | x, _, ks, some (.fixed w) :: r => placeFlat (x + w) true ks r
  | x, sp, ks, some (.mark ..) :: r => placeFlat x sp ks r

theorem placeFlat_items (is : List Item) (x : Nat) (sp : Bool) (ks : List Nat) (r : List (Option Piece)) :
    placeFlat x sp ks (is.map (fun i => some i.piece) ++ r) =
      (placeItems x sp is).1 ++ placeFlat (placeItems x sp is).2.1 (placeItems x sp is).2.2 ks r := by
  induction is generalizing x sp with
  | nil => rfl
  | cons i is ih =>
    obtain ⟨piece, after⟩ := i
    cases piece with
    | glyph g => exact congrArg _ (ih (x + g.width) false)
    | fixed w => exact ih (x + w) true
    | mark f z => exact ih x sp

/-- A line's words are placed as its pieces one after another. -/
theorem placeWords_eq (ws : List LineWord) (x : Nat) (sp : Bool) (ks : List Nat) :
    placeWords x sp ks ws = placeFlat x sp ks (flatLine ws) := by
  induction ws generalizing x sp ks with
  | nil => rfl
  | cons w ws ih =>
    obtain ⟨before, is⟩ := w
    have flat : flatLine (⟨before, is⟩ :: ws) =
        (before.toList.map fun _ => none) ++ (is.map (fun i => some i.piece) ++ flatLine ws) := by
      rw [flatLine, List.flatMap_cons, List.append_assoc]
      rfl
    rw [flat]
    cases before with
    | none =>
      refine Eq.trans ?_ (placeFlat_items is x sp ks (flatLine ws)).symm
      rw [← ih]
      rfl
    | some q =>
      cases ks with
      | nil =>
        refine Eq.trans ?_ (placeFlat_items is x true [] (flatLine ws)).symm
        rw [← ih]
        rfl
      | cons k ks =>
        refine Eq.trans ?_ (placeFlat_items is (x + k) true ks (flatLine ws)).symm
        rw [← ih]
        rfl

theorem length_placeFlat (flat : List (Option Piece)) (x : Nat) (sp : Bool) (ks : List Nat) :
    (placeFlat x sp ks flat).length = flat.countP isGlyphEntry := by
  induction flat generalizing x sp ks with
  | nil => rfl
  | cons entry r ih =>
    match entry with
    | none => exact ih _ _ _
    | some (.glyph g) =>
      rw [placeFlat, List.length_cons, ih, List.countP_cons]
      rfl
    | some (.fixed w) => exact ih _ _ _
    | some (.mark f z) => exact ih _ _ _

/-- A space mark carried to a place: a space since the last glyph, or since the start, where it began with `sp`. -/
def spaceBefore (sp : Bool) (before : List (Option Piece)) : Bool :=
  (before.reverse.takeWhile fun x => !isGlyphEntry x).any isSpaceEntry || (sp && before.all fun x => !isGlyphEntry x)

theorem spaceBefore_cons (sp : Bool) (entry : Option Piece) (before : List (Option Piece)) :
    spaceBefore sp (entry :: before) =
      spaceBefore (if isGlyphEntry entry = true then false else isSpaceEntry entry || sp) before := by
  unfold spaceBefore
  rw [List.reverse_cons, List.takeWhile_append, List.all_cons]
  by_cases none_ : ∀ x ∈ before, isGlyphEntry x = false
  · have all : before.all (fun x => !isGlyphEntry x) = true := by simpa using none_
    have whole : before.reverse.takeWhile (fun x => !isGlyphEntry x) = before.reverse :=
      List.takeWhile_eq_self_iff.2 fun x hx => by simpa using none_ x (List.mem_reverse.1 hx)
    rw [whole, all, if_pos rfl]
    cases glyph : isGlyphEntry entry <;> cases space : isSpaceEntry entry <;> simp [glyph, space]
  · have all : before.all (fun x => !isGlyphEntry x) = false := by simpa using none_
    have less : (before.reverse.takeWhile fun x => !isGlyphEntry x).length ≠ before.reverse.length := by
      intro same
      have whole := (List.takeWhile_prefix (fun x => !isGlyphEntry x)).eq_of_length same
      exact none_ fun x hx => by simpa using List.takeWhile_eq_self_iff.1 whole x (List.mem_reverse.2 hx)
    rw [if_neg less, all]
    simp

/-- Each glyph of a line, its left edge and its space mark (R114, R182). -/
theorem placeFlat_get {g : Glyph} (flat : List (Option Piece)) (k : Nat) (at_ : flat[k]? = some (some (.glyph g))) (x : Nat)
    (sp : Bool) (ks : List Nat) :
    (placeFlat x sp ks flat)[(flat.take k).countP isGlyphEntry]? = some
      ⟨g, x + ((flat.take k).map entryWidth).sum + (ks.take ((flat.take k).countP fun e => e.isNone)).sum,
        spaceBefore sp (flat.take k)⟩ := by
  induction flat generalizing k x sp ks with
  | nil => cases at_
  | cons entry r ih =>
    cases k with
    | zero =>
      cases Option.some.inj at_
      simp [placeFlat, spaceBefore]
    | succ k =>
      have next := ih k at_
      rw [List.take_succ_cons, List.countP_cons, List.countP_cons, List.map_cons, List.sum_cons, spaceBefore_cons]
      match entry with
      | none =>
        have here := next (x + ks.headD 0) true ks.tail
        have spaces (n : Nat) : (ks.take (n + 1)).sum = ks.headD 0 + (ks.tail.take n).sum := by
          cases ks with
          | nil => simp
          | cons k ks => simp
        rw [if_pos Option.isNone_none, spaces]
        refine here.trans (congrArg some (congrArg (Placed.mk g · _) ?_))
        show _ = x + (0 + _) + _
        omega
      | some (.glyph g') =>
        have here := next (x + g'.width) false ks
        refine here.trans (congrArg some (congrArg (Placed.mk g · _) ?_))
        show _ = x + (g'.width + _) + _
        simp only [Nat.add_assoc]
        rfl
      | some (.fixed w) =>
        have here := next (x + w) true ks
        refine here.trans (congrArg some (congrArg (Placed.mk g · _) ?_))
        show _ = x + (w + _) + _
        simp only [Nat.add_assoc]
        rfl
      | some (.mark f z) =>
        have here := next x sp ks
        refine here.trans (congrArg some (congrArg (Placed.mk g · _) ?_))
        show _ = x + (0 + _) + _
        simp only [Nat.zero_add]
        rfl

/-- Settles O45: the spaces and the offset of a line by its excess, and the place of each glyph. -/
theorem justifiedLineFills : Obligations.JustifiedLineFills := by
  refine ⟨?fills, ?shares, ?free, ?placed, fun _ _ => rfl, fun _ _ _ _ _ => ⟨rfl, rfl, rfl, rfl, rfl⟩⟩
  case fills =>
    intro a width glyphs sp spaced ordered room set
    obtain ⟨-, least⟩ := sum_shrinkCap ordered
    obtain ⟨-, most⟩ := sum_stretchCap ordered
    by_cases long : width < glyphs + sumNorm sp
    · have within : glyphs + sumNorm sp - width ≤ sumNorm sp - sumMin sp := by omega
      have sum := sum_shrink ordered within
      rw [setLine_shrunk spaced long]
      refine ⟨?_, rfl, ?_, fun short _ => absurd long (Nat.not_lt.2 short), fun _ => shrink_within within ordered⟩
      · show (shrink _ sp).sum = _
        omega
      · exact (shrink_within within ordered).length_eq
    · have justified : a = .justify := set.resolve_right long
      rw [justified]
      by_cases short : width ≤ glyphs + sumMax sp
      · have within : width - glyphs - sumNorm sp ≤ sumMax sp - sumNorm sp := by omega
        have sum := sum_stretch ordered within
        rw [setLine_stretched spaced ordered (Nat.not_lt.1 long) short]
        refine ⟨?_, rfl, ?_, fun _ _ => stretch_within within ordered, fun less => absurd less long⟩
        · show (stretch _ sp).sum = _
          omega
        · exact (stretch_within within ordered).length_eq
      · obtain ⟨loose, fills⟩ := looseLineSharesRest width glyphs sp spaced (fun q hq => (ordered q hq).2)
          (Nat.not_le.1 short)
        refine ⟨fills, ?_, ?_, fun _ fits => absurd fits short, fun less => absurd less long⟩
        · rw [loose]
        · rw [loose]
          exact List.length_mapIdx
  case shares =>
    intro a width glyphs sp spaced ordered e lack more less roomUp roomDown
    refine ⟨fun short room => ?_, fun long _ => ?_⟩
    · rw [setLine_stretched spaced ordered short room]
      refine (stretch_eq_mapIdx _ sp).trans ?_
      simp only [decide_eq_true_eq]
      rfl
    · rw [setLine_shrunk spaced long]
      refine (shrink_eq_mapIdx _ sp).trans ?_
      simp only [decide_eq_true_eq]
      rfl
  case free =>
    intro width glyphs sp slack norms
    exact ⟨fun short => ⟨setLine_natural nofun short, setLine_natural nofun short, setLine_natural nofun short⟩, rfl,
      fun wide a => setLine_wide wide⟩
  case placed =>
    intro sh t ws k g flat isGlyph isSpace before placed
    have places : placed = placeFlat (12 * sh.indent + t.offset) false t.spaces flat :=
      placeWords_eq ws (12 * sh.indent + t.offset) false t.spaces
    have spaces : isSpace = isSpaceEntry := rfl
    rw [places]
    refine ⟨length_placeFlat flat _ _ _, fun at_ => ?_⟩
    have get := placeFlat_get flat k at_ (12 * sh.indent + t.offset) false t.spaces
    rw [spaceBefore, Bool.false_and, Bool.or_false] at get
    exact get

/-! ## Set steps (R115) -/

theorem toStep_down (x : Nat) : toStep .down x = x / 12 := by
  simp [toStep]

theorem toStep_up (x : Nat) : toStep .up x = (x + 11) / 12 := by
  unfold toStep
  dsimp only
  split <;> omega

theorem toStep_nearestUp (x : Nat) : toStep .nearestUp x = if x % 12 < 6 then x / 12 else (x + 11) / 12 := by
  unfold toStep
  dsimp only
  split
  · rw [if_pos (by omega)]
  · split <;> omega

theorem toStep_nearestEven (x : Nat) : toStep .nearestEven x =
    if x % 12 < 6 then x / 12 else if 6 < x % 12 then (x + 11) / 12
    else if x / 12 % 2 = 0 then x / 12 else (x + 11) / 12 := by
  unfold toStep
  dsimp only
  split
  · rw [if_pos (by omega)]
  · have up : (x + 11) / 12 = x / 12 + 1 := by omega
    rw [up]

/-- Settles O47: the floor or the ceiling, by the mode and the remainder. -/
theorem roundingToSetSteps : Obligations.RoundingToSetSteps := by
  refine ⟨fun m x => ?_, fun m x y le => ?_⟩
  · cases m with
    | down => exact toStep_down x
    | up => exact toStep_up x
    | nearestUp => exact toStep_nearestUp x
    | nearestEven => exact toStep_nearestEven x
  · cases m with
    | down => rw [toStep_down, toStep_down]; omega
    | up => rw [toStep_up, toStep_up]; omega
    | nearestUp => rw [toStep_nearestUp, toStep_nearestUp]; split_ifs <;> omega
    | nearestEven => rw [toStep_nearestEven, toStep_nearestEven]; split_ifs <;> omega

end Sys2Proof.Proofs

/-! PROOFS. What the links and the job queue leave alone: the positions, the line buffer, the sequencer, the film and the
proof channel. -/

namespace Sys2Proof.Proofs

open Sys2Proof.Machine

/-! ## The work of the machine -/

/-- The fields that composition, imaging and proofing work on; the links, the jobs, the queue and the mount requests are
not among them. -/
def work (s : State) : Vector Position 6 × Nat × List Record × Imaging × Film × ProofChannel :=
  (s.mount.pos, s.mount.flashSeq, s.buffer, s.imaging, s.film, s.proof)

section

variable {s t : State} (same : work t = work s)
include same

theorem pos_of_work : t.mount.pos = s.mount.pos := congrArg (·.1) same
theorem flashSeq_of_work : t.mount.flashSeq = s.mount.flashSeq := congrArg (·.2.1) same
theorem buffer_of_work : t.buffer = s.buffer := congrArg (·.2.2.1) same
theorem imaging_of_work : t.imaging = s.imaging := congrArg (·.2.2.2.1) same
theorem film_of_work : t.film = s.film := congrArg (·.2.2.2.2.1) same
theorem proof_of_work : t.proof = s.proof := congrArg (·.2.2.2.2.2) same

end

theorem foldl_work {α : Type} {f : State → α → State} (each : ∀ s a, work (f s a) = work s) (as : List α) (s : State) :
    work (as.foldl f s) = work s := by
  induction as generalizing s with
  | nil => rfl
  | cons a rest ih => exact (ih (f s a)).trans (each s a)

/-! ## The queue (04) -/

theorem refreshEngine_frame (s : State) : ∃ st, refreshEngine s = { s with engine := { s.engine with st := st } } := by
  unfold refreshEngine
  split
  · exact ⟨s.engine.st, rfl⟩
  · split
    · exact ⟨_, rfl⟩
    · exact ⟨s.engine.st, rfl⟩
  · exact ⟨_, rfl⟩

@[simp] theorem work_refreshEngine (s : State) : work (refreshEngine s) = work s := by
  obtain ⟨st, is⟩ := refreshEngine_frame s
  rw [is]
  rfl

@[simp] theorem work_trySelect (s : State) : work (trySelect s) = work s := by
  rcases trySelect_cases s with is | ⟨j, -, -, is⟩ <;> rw [is]
  rfl

@[simp] theorem work_checkJob (j : JobId) (s : State) : work (checkJob j s) = work s := by
  rcases checkJob_cases j s with is | is | ⟨_, _, is⟩ | is <;> rw [is] <;> rfl

@[simp] theorem work_checkJobs (js : List JobId) (s : State) : work (checkJobs js s) = work s :=
  foldl_work (fun t j => work_checkJob j t) js s

@[simp] theorem work_stopComposing (j : JobId) (f : Job → Job) (s : State) : work (stopComposing j f s) = work s := rfl

@[simp] theorem work_promoteWaiting (n : Nat) (s : State) : work (promoteWaiting n s) = work s := by
  obtain ⟨_, _, _, is⟩ := promoteWaiting_frame n s
  rw [is]
  rfl

@[simp] theorem work_releaseWaiters (f : Nat) (s : State) : work (releaseWaiters f s) = work s := by
  obtain ⟨_, _, _, _, is⟩ := releaseWaiters_frame f s
  rw [is]
  rfl

@[simp] theorem work_leaveWaiters (j : JobId) (s : State) : work (leaveWaiters j s) = work s := work_promoteWaiting _ _

@[simp] theorem work_enterWaiter (j : JobId) (f : Nat) (s : State) : work (enterWaiter j f s) = work s := by
  unfold enterWaiter
  split
  · rfl
  · split <;> rfl

@[simp] theorem work_refreshMount (s : State) : work (refreshMount s) = work s := by
  unfold refreshMount
  dsimp only
  split <;> rfl

@[simp] theorem work_flowIfFreed (before : Nat) (s : State) : work (flowIfFreed before s) = work s := by
  unfold flowIfFreed flowAfterFreeing
  split
  · split <;> rfl
  · rfl

@[simp] theorem work_rewind (e : JobId × Nat × Context) (s : State) : work (rewind e s) = work s := by
  unfold rewind
  dsimp only
  split
  · exact work_checkJob _ _
  · have left : work (if s.jobs[e.1].state = .waitMount then leaveWaiters e.1 s else s) = work s := by
      split
      · exact work_leaveWaiters _ _
      · rfl
    refine Eq.trans ?_ left
    generalize (if s.jobs[e.1].state = .waitMount then leaveWaiters e.1 s else s) = t
    split <;> rfl

@[simp] theorem work_stopAtBoundary (s : State) : work (stopAtBoundary s) = work s := by
  unfold stopAtBoundary
  split <;> rfl

@[simp] theorem work_deliveredTo (s : State) (j : JobId) : work (deliveredTo s j) = work s := work_checkJob _ _

@[simp] theorem work_countDelivered (s : State) (g : Segment) : work (countDelivered s g) = work s := rfl

/-! ## Pins and the flush (R137, R143) -/

/-- What a fold over records that only lowers pins and sends commands leaves alone. -/
theorem unpin_frame (p : Pos) (s : State) :
    ∃ pos port, unpin p s = { s with mount := { s.mount with pos := pos }, port := port } := by
  unfold unpin
  dsimp only
  split
  · exact ⟨s.mount.pos, s.port, rfl⟩
  · split <;> exact ⟨_, _, rfl⟩

theorem foldl_unpin_frame (ps : List Pos) (s : State) :
    ∃ pos port, ps.foldl (fun t p => unpin p t) s = { s with mount := { s.mount with pos := pos }, port := port } := by
  induction ps generalizing s with
  | nil => exact ⟨s.mount.pos, s.port, rfl⟩
  | cons p rest ih =>
    obtain ⟨pos, port, is⟩ := unpin_frame p s
    obtain ⟨pos', port', rest_is⟩ := ih (unpin p s)
    refine ⟨pos', port', ?_⟩
    rw [List.foldl_cons, rest_is, is]

theorem unpinRecord_frame (r : Record) (s : State) :
    ∃ pos port, unpinRecord r s = { s with mount := { s.mount with pos := pos }, port := port } :=
  foldl_unpin_frame r.positions s

theorem unpinRecords_frame (rs : List Record) (s : State) :
    ∃ pos port, rs.foldl (fun t r => unpinRecord r t) s = { s with mount := { s.mount with pos := pos }, port := port } := by
  induction rs generalizing s with
  | nil => exact ⟨s.mount.pos, s.port, rfl⟩
  | cons r rest ih =>
    obtain ⟨pos, port, is⟩ := unpinRecord_frame r s
    obtain ⟨pos', port', rest_is⟩ := ih (unpinRecord r s)
    refine ⟨pos', port', ?_⟩
    rw [List.foldl_cons, rest_is, is]

/-- The jobs handed over lose their records from the restart line on, and nothing else changes in the machine's work. -/
theorem work_handOvers (lost : List (JobId × Nat × Context)) (s : State) :
    work (lost.foldl handOver s) =
      work { s with buffer := s.buffer.filter fun r => lost.all fun e => !r.lostBy e } := by
  induction lost generalizing s with
  | nil => simp [work]
  | cons e rest ih =>
    have one : work (handOver s e) = work { s with buffer := s.buffer.filter fun r => !r.lostBy e } := work_rewind _ _
    rw [List.foldl_cons, ih]
    have both : ((s.buffer.filter fun r => !r.lostBy e).filter fun r => rest.all fun e => !r.lostBy e) =
        s.buffer.filter fun r => (e :: rest).all fun e => !r.lostBy e := by
      rw [List.filter_filter]
      simp [List.all_cons, Bool.and_comm]
    have buffer := buffer_of_work one
    simp only [work, buffer, both, pos_of_work one, flashSeq_of_work one, imaging_of_work one,
      film_of_work one, proof_of_work one]

/-- The pins of the records that a flush discards, released (R143). -/
def unpinned (s : State) : State := (s.buffer.filter (·.imgLive)).foldl (fun t r => unpinRecord r t) s

/-- The records that a flush leaves (R143, R144). -/
def flushedBuffer (segs : List Segment) (buffer : List Record) : List Record :=
  (buffer.filterMap Record.flushed).filter fun r => (firstLost (lostLines segs buffer)).all fun e => !r.lostBy e

/-- What a flush changes of the machine's work: the pins and the buffer. -/
theorem work_flush (segs : List Segment) (s : State) :
    work (flush segs s) = work { unpinned s with buffer := flushedBuffer segs s.buffer } := by
  obtain ⟨pos, port, is⟩ := unpinRecords_frame (s.buffer.filter (·.imgLive)) s
  have buffer : (unpinned s).buffer = s.buffer := by rw [unpinned, is]
  unfold flush
  dsimp only
  rw [work_checkJobs, work_trySelect, work_refreshEngine, work_stopAtBoundary, work_handOvers]
  show work { unpinned s with
    buffer := (((unpinned s).buffer.filterMap Record.flushed).filter fun r =>
      (firstLost (lostLines segs s.buffer)).all fun e => !r.lostBy e) } = _
  rw [buffer]
  rfl

theorem unpinned_frame (s : State) :
    ∃ pos port, unpinned s = { s with mount := { s.mount with pos := pos }, port := port } := unpinRecords_frame _ s

theorem flush_imaging (segs : List Segment) (s : State) : (flush segs s).imaging = s.imaging := by
  obtain ⟨pos, port, is⟩ := unpinned_frame s
  rw [imaging_of_work (work_flush segs s), is]

theorem flush_film (segs : List Segment) (s : State) : (flush segs s).film = s.film := by
  obtain ⟨pos, port, is⟩ := unpinned_frame s
  rw [film_of_work (work_flush segs s), is]

theorem flush_proof (segs : List Segment) (s : State) : (flush segs s).proof = s.proof := by
  obtain ⟨pos, port, is⟩ := unpinned_frame s
  rw [proof_of_work (work_flush segs s), is]

theorem flush_flashSeq (segs : List Segment) (s : State) : (flush segs s).mount.flashSeq = s.mount.flashSeq := by
  obtain ⟨pos, port, is⟩ := unpinned_frame s
  rw [flashSeq_of_work (work_flush segs s), is]

theorem flush_buffer (segs : List Segment) (s : State) : (flush segs s).buffer = flushedBuffer segs s.buffer :=
  buffer_of_work (work_flush segs s)

theorem flush_pos (segs : List Segment) (s : State) : (flush segs s).mount.pos = (unpinned s).mount.pos :=
  pos_of_work (s := { unpinned s with buffer := flushedBuffer segs s.buffer }) (work_flush segs s)

theorem spoil_imaging (s : State) : (spoil s).imaging = s.imaging := flush_imaging _ _

theorem spoil_film (s : State) :
    (spoil s).film = { s.film with take := [], pendingCut := false, move := none, cut := none, cutTimer := none } :=
  flush_film _ _

theorem spoil_settings (s : State) : (spoil s).settings = s.settings := congrArg (·.2.2.1) (spoil_kept s)

end Sys2Proof.Proofs

/-! PROOFS. The imaging mechanism (09): confirms (O48), their timer and the faults (O49), flashes (O51), the lamp and CLEAR
(O52). -/

namespace Sys2Proof.Proofs

open Sys2Proof.Machine

/-! ## Stops (R145) -/

theorem enterStopped_eq (r : StopReason) (s : State) :
    enterStopped r s = { s with imaging := { s.imaging with st := .stopped, stop := r }
                                links := s.links.map (Link.notice .imagingStopped none r.code) } := by
  rw [enterStopped, noticeAll_eq]
  rfl

theorem isFilm_iff (r : StopReason) : r.isFilm = true ↔ r = .noFilm ∨ r = .filmOut ∨ r = .gate := by
  cases r <;> simp [StopReason.isFilm]

theorem isFilm_false (r : StopReason) : r.isFilm = false ↔ ¬ (r = .noFilm ∨ r = .filmOut ∨ r = .gate) := by
  rw [← isFilm_iff, Bool.not_eq_true]

/-- The resume test with a film reason stops the sequencer, or leaves it stopped (R158, R145). -/
theorem resumeTest_stops {s : State} {r : StopReason} (reason : filmReason s = r) (some_ : r ≠ .none) :
    resumeTest s = if s.imaging.st = .stopped ∧ s.imaging.stop = r then s else enterStopped r s := by
  unfold resumeTest
  dsimp only
  rw [reason, if_neg some_]

theorem resumeTest_resumes {s : State} (reason : filmReason s = .none) :
    resumeTest s = { s with imaging := { s.imaging with st := .idle, stop := .none } } := by
  unfold resumeTest
  dsimp only
  rw [reason, if_pos rfl]
  rfl

theorem filmReason_unloaded {s : State} (unloaded : s.film.loaded = false) : filmReason s = .noFilm := if_pos unloaded

theorem filmReason_gate {s : State} (loaded : s.film.loaded = true) (down : s.film.gate = false) :
    filmReason s = .gate := by
  simp [filmReason, loaded, down]

theorem filmReason_filmOut {s : State} (gate : s.film.gate = true) (out : s.film.filmOut = true) :
    filmReason s = .filmOut := by
  have loaded : s.film.loaded = true := by simp only [Film.gate, Bool.and_eq_true] at gate; exact gate.1.1
  simp [filmReason, loaded, gate, out]

theorem filmReason_none {s : State} (gate : s.film.gate = true) (usable : s.film.filmOut = false) :
    filmReason s = .none := by
  have loaded : s.film.loaded = true := by simp only [Film.gate, Bool.and_eq_true] at gate; exact gate.1.1
  simp [filmReason, loaded, gate, usable]

theorem gate_iff (f : Film) : f.gate = true ↔ f.loaded = true ∧ f.takeUp = true ∧ f.doorClosed = true := by
  simp only [Film.gate, Bool.and_eq_true, and_assoc]

theorem gate_false (f : Film) : f.gate = false ↔ ¬ (f.loaded = true ∧ f.takeUp = true ∧ f.doorClosed = true) := by
  rw [← gate_iff, Bool.not_eq_true]

/-! ## Commands awaited (R150) -/

theorem startMove_sends {m : ImgMove} {c : MechCommand} (is : m.command = some c) (s : State) :
    startMove m s =
      { s with
        imaging := { s.imaging with move := some m, retry := 0, limit := s.settings.retryLimit
                                    confirmTimer := some s.settings.confirmTimeout }
        port := s.port ++ [c] } := by
  simp only [startMove, is]
  rfl

theorem resend_sends {m : ImgMove} {c : MechCommand} (is : m.command = some c) (n : Nat) (s : State) :
    resend m n s =
      { s with
        imaging := { s.imaging with move := some m, retry := n, limit := s.settings.retryLimit
                                    confirmTimer := some s.settings.confirmTimeout }
        port := s.port ++ [c] } := by
  rw [resend, startMove_sends is]
  rfl

theorem confirmed_turret {s : State} {p : Pos} (moving : s.imaging.move = some (.turret p)) :
    confirmed .turret s = settle s.store.freeCount (turretConfirmed p s) := by
  unfold confirmed
  generalize settle s.store.freeCount = after
  rw [moving]

theorem confirmed_lens {s : State} {l : Lens} (moving : s.imaging.move = some (.lens l)) :
    confirmed .lens s = settle s.store.freeCount (lensConfirmed l s) := by
  unfold confirmed
  generalize settle s.store.freeCount = after
  rw [moving]

theorem confirmed_lensHome {s : State} (moving : s.imaging.move = some .lensHome) :
    confirmed .lens s = settle s.store.freeCount (lensHomed s) := by
  unfold confirmed
  generalize settle s.store.freeCount = after
  rw [moving]

theorem confirmed_turret_ignored {s : State} (other : ∀ p, s.imaging.move ≠ some (.turret p)) :
    confirmed .turret s = s := by
  unfold confirmed
  split
  · rename_i p _ is
    exact absurd is (other p)
  · contradiction
  · contradiction
  · rfl

theorem confirmed_lens_ignored {s : State} (other : ∀ l, s.imaging.move ≠ some (.lens l))
    (notHome : s.imaging.move ≠ some .lensHome) : confirmed .lens s = s := by
  unfold confirmed
  split
  · contradiction
  · rename_i l _ is
    exact absurd is (other l)
  · rename_i is
    exact absurd is notHome
  · rfl

theorem turretConfirmed_starting {s : State} (p : Pos) (starting : s.imaging.st = .starting) :
    turretConfirmed p s =
      { s with
        imaging := { s.imaging with curPos := some p, move := some .readStrip, retry := 0, limit := s.settings.retryLimit
                                    confirmTimer := some s.settings.confirmTimeout }
        port := s.port ++ [.readStrip] } := by
  unfold turretConfirmed
  dsimp only
  rw [if_pos starting, startMove_sends rfl]
  rfl

/-- Settles O48: the move of each kind ends, and with none of its kind in flight nothing changes. -/
theorem confirmEndsMove : Obligations.ConfirmEndsMove := by
  intro s after ended
  refine ⟨fun p moving => ⟨fun starting => ?_, fun going => ?_⟩, fun l moving => ?_, fun moving => ?_, fun other => ?_,
    fun other notHome => ?_⟩
  · rw [exec_confirm, confirmed_turret moving, turretConfirmed_starting p starting]
  · have goes : turretConfirmed p s = runElement (ended { s.imaging with curPos := some p }) := if_neg going
    rw [exec_confirm, confirmed_turret moving, goes]
  · have goes : lensConfirmed l s = runElement (ended { s.imaging with curLens := some l }) := rfl
    rw [exec_confirm, confirmed_lens moving, goes]
  · have goes : lensHomed s = resumeTest (ended { s.imaging with curLens := some 0, stage := .done }) := rfl
    rw [exec_confirm, confirmed_lensHome moving, goes]
  · rw [exec_confirm, confirmed_turret_ignored other]
  · rw [exec_confirm, confirmed_lens_ignored other notHome]

/-! ## Faults (R156) -/

theorem abandonWork_eq (s : State) :
    abandonWork s = { s with imaging := { s.imaging with move := none, retry := 0, confirmTimer := none } } := rfl

theorem mechanismFault_eq (why : StopReason) (s : State) :
    mechanismFault why s =
      { spoil (abandonWork s) with
        imaging := { s.imaging with
          move := none, retry := 0, confirmTimer := none, st := .stopped, stop := why
          curPos := if why = .turretFault then none else s.imaging.curPos
          curLens := if why = .lensFault then none else s.imaging.curLens
          lowRun := if why = .lampFail then 0 else s.imaging.lowRun
          failCleared := if why = .lampFail then false else s.imaging.failCleared }
        links := (spoil (abandonWork s)).links.map (Link.notice .imagingStopped none why.code) } := by
  have kept : (spoil (abandonWork s)).imaging = (abandonWork s).imaging := spoil_imaging _
  rw [mechanismFault, enterStopped_eq]
  simp only [State.modImg, kept]
  rfl

/-- A move whose expiry sends a command again, with the fault of its failure. -/
theorem confirmExpired_eq {s : State} {m : ImgMove} {why : StopReason} (running : s.imaging.confirmTimer.isSome = true)
    (moving : s.imaging.move = some m) (fault : m.fault = some why) :
    confirmExpired s =
      if s.imaging.limit = 7 then resend m s.imaging.retry s
      else if s.imaging.retry < s.imaging.limit then resend m (s.imaging.retry + 1) s
      else settle s.store.freeCount (mechanismFault why s) := by
  obtain ⟨time, timer⟩ := Option.isSome_iff_exists.1 running
  simp only [confirmExpired, timer, moving, fault]
  rfl

/-- Settles O49: the expiry by the retry limit, what the faults leave, and the stop. -/
theorem confirmExpiryRetries : Obligations.ConfirmExpiryRetries := by
  refine ⟨?expiry, ?faults, ?stops⟩
  case expiry =>
    intro m cmd s running moving kind again why
    have command : m.command = some cmd ∧ m.fault = some why := by
      rcases kind with ⟨p, rfl, rfl⟩ | ⟨l, rfl, rfl⟩ | ⟨rfl, rfl⟩ | ⟨rfl, rfl⟩
      all_goals
        refine ⟨rfl, ?_⟩
        simp [why, ImgMove.fault]
    obtain ⟨sends, fault⟩ := command
    have moved : { s with imaging := { s.imaging with move := some m } } = s := by rw [← moving]
    have sent (n : Nat) : resend m n s = again n := by
      rw [resend_sends sends, ← moving]
    rw [exec_confirmTimerExpiry, confirmExpired_eq running moving fault]
    refine ⟨fun always => ?_, fun limited below => ?_, fun limited reached => ?_⟩
    · rw [if_pos always, sent]
    · rw [if_neg limited, if_pos below, sent]
    · rw [if_neg limited, if_neg (Nat.not_lt.2 reached)]
  case faults =>
    intro why code s kind left spoiled
    have coded : why.code = code := by
      simp only [List.mem_cons, Prod.mk.injEq, List.not_mem_nil, or_false] at kind
      rcases kind with ⟨rfl, rfl⟩ | ⟨rfl, rfl⟩ | ⟨rfl, rfl⟩ <;> rfl
    refine ⟨spoil_imaging _, ?_⟩
    rw [mechanismFault_eq, coded]
    rfl
  case stops =>
    intro why code s kind
    have coded : why.code = code := by
      have all : ∀ p ∈ [(StopReason.noFilm, 1), (.filmOut, 2), (.gate, 3), (.turretFault, 4), (.lensFault, 5), (.cutFault, 6),
        (.stripLost, 7), (.lampFail, 8)], p.1.code = p.2 := by decide
      exact all _ kind
    rw [enterStopped_eq, coded]


/-! ## The lamp (R153, R155) -/

/-- The weak flag that the weak test leaves (R155). -/
def weakAfter (s : State) : Bool :=
  if s.imaging.soak = 0 then decide (s.imaging.a64 / 64 < s.settings.weakThreshold) else s.imaging.weak

/-- The weak test sets the flag, with one notice for all desks when it was clear, and changes nothing else (R155). -/
theorem weakTest_eq (s : State) :
    weakTest s =
      { s with imaging := { s.imaging with weak := weakAfter s }
               links :=
                 if weakAfter s = true ∧ s.imaging.weak = false then
                   s.links.map (Link.notice .lampWeak none (s.imaging.a64 / 64))
                 else s.links } := by
  by_cases soaking : s.imaging.soak = 0
  · by_cases low : s.imaging.a64 / 64 < s.settings.weakThreshold
    · have flag : weakAfter s = true := (if_pos soaking).trans (decide_eq_true low)
      rw [flag]
      by_cases was : s.imaging.weak = true
      · have kept : weakTest s = s := (if_neg (not_not.2 soaking)).trans ((if_pos low).trans (if_pos was))
        rw [kept, if_neg fun clear => absurd was (by rw [clear.2]; decide), ← was]
      · have told : weakTest s =
            (s.modImg fun i => { i with weak := true }).noticeAll .lampWeak (s.imaging.a64 / 64) :=
          (if_neg (not_not.2 soaking)).trans ((if_pos low).trans (if_neg was))
        rw [told, noticeAll_eq, if_pos ⟨rfl, Bool.not_eq_true _ ▸ was⟩]
        rfl
    · have flag : weakAfter s = false := (if_pos soaking).trans (decide_eq_false low)
      have cleared : weakTest s = s.modImg fun i => { i with weak := false } :=
        (if_neg (not_not.2 soaking)).trans (if_neg low)
      rw [flag, cleared, if_neg fun clear => Bool.false_ne_true clear.1]
      rfl
  · have flag : weakAfter s = s.imaging.weak := if_neg soaking
    have kept : weakTest s = s := if_pos soaking
    rw [flag, kept, if_neg fun clear => absurd clear.1 (by rw [clear.2]; decide)]

theorem flashDone_taken {s : State} (r : Nat) (flashing : s.imaging.move = some .flash) :
    flashDone r s =
      settle s.store.freeCount (flashEnded r
        { s with imaging := { s.imaging with move := none, confirmTimer := none, seedPending := false
                                             a64 := lampAverage s.imaging s.settings.avgK r } }) := by
  unfold flashDone
  rw [if_pos flashing]
  rfl

theorem flashExpired_taken {s : State} (flashing : s.imaging.move = some .flash)
    (running : s.imaging.confirmTimer.isSome = true) :
    flashExpired s =
      settle s.store.freeCount (flashEnded 0 { s with imaging := { s.imaging with move := none, confirmTimer := none } }) := by
  unfold flashExpired
  rw [if_pos ⟨flashing, running⟩]
  rfl

/-- The floor of the 2^k-th part of the way keeps the average between where it stood and where it moves to (R153). -/
theorem lampAverage_between (a b k : Nat) :
    min a b ≤ ((a : Int) + ((b : Int) - a) / 2 ^ k).toNat ∧ ((a : Int) + ((b : Int) - a) / 2 ^ k).toNat ≤ max a b := by
  have whole : (1 : Int) ≤ 2 ^ k := one_le_pow₀ (by decide)
  rcases Nat.le_total a b with up | down
  · have low : 0 ≤ ((b : Int) - a) / 2 ^ k := Int.ediv_nonneg (by omega) (by omega)
    have high : ((b : Int) - a) / 2 ^ k ≤ (b : Int) - a := Int.ediv_le_self _ (by omega)
    omega
  · have low : (b : Int) - a ≤ ((b : Int) - a) / 2 ^ k := by
      rw [Int.le_ediv_iff_mul_le (by omega)]
      nlinarith
    have high : ((b : Int) - a) / 2 ^ k ≤ 0 := Int.ediv_nonpos_of_nonpos_of_neg (by omega) (by omega)
    omega

/-- Settles O51: the reading used, and what follows a flash. -/
theorem flashesTaken : Obligations.FlashesTaken := by
  refine ⟨?taken, ?ended⟩
  case taken =>
    intro reading s after r i average
    refine ⟨fun flashing => ?_, fun flashing running => ?_, fun other => ⟨?_, ?_⟩, fun seeded => ?_⟩
    · rw [exec_flashDone, flashDone_taken _ flashing]
      rfl
    · rw [exec_flashTimeout, flashExpired_taken flashing running]
    · have ignored : flashDone reading.toNat s = s := if_neg other
      rw [exec_flashDone, ignored]
    · have ignored : flashExpired s = s := if_neg fun ⟨flashing, _⟩ => other flashing
      rw [exec_flashTimeout, ignored]
    · have moved : average = ((i.a64 : Int) + (((64 * r : Nat) : Int) - i.a64) / 2 ^ s.settings.avgK).toNat := by
        show (if i.seedPending then _ else _) = _
        rw [seeded]
        push_cast
        rfl
      rw [moved]
      exact lampAverage_between _ _ _
  case ended =>
    intro r s i soak run weak told failed
    refine ⟨fun short => ?_, fun third => ?_⟩
    · have branch : flashEnded r s = runElement
          ((weakTest { s with imaging := { i with soak := soak, lowRun := run } }).modImg fun i =>
            { i with elem := i.elem + 1 }) := if_neg (Nat.not_le.2 short)
      rw [branch, weakTest_eq]
      rfl
    · have branch : flashEnded r s = weakTest failed := if_pos third
      have same : failed.imaging.soak = soak ∧ failed.imaging.a64 = i.a64 ∧ failed.imaging.weak = i.weak ∧
          failed.settings = s.settings := by
        simp only [failed]
        rw [mechanismFault_eq]
        exact ⟨rfl, rfl, rfl, spoil_settings _⟩
      obtain ⟨sameSoak, sameAverage, sameWeak, sameSettings⟩ := same
      have flag : weakAfter failed = weak := by
        simp only [weakAfter, sameSoak, sameAverage, sameWeak, sameSettings]
        rfl
      rw [branch, weakTest_eq, flag, sameAverage, sameWeak]

/-! ## CLEAR (R159) -/

theorem clearFault_ignored {s : State}
    (not_ : s.imaging.st ≠ .stopped ∨ s.imaging.stop.isFilm = true ∨ causeGone s.imaging = false) : clearFault s = s := by
  refine if_neg fun ⟨stopped, fault, gone⟩ => ?_
  rcases not_ with other | film | stays
  · exact other stopped
  · rw [film] at fault
    cases fault
  · rw [gone] at stays
    cases stays

theorem clearFault_taken {s : State} (stopped : s.imaging.st = .stopped) (fault : s.imaging.stop.isFilm = false)
    (gone : causeGone s.imaging = true) :
    clearFault s =
      settle s.store.freeCount
        (if raisedInStarting s.imaging then restart s.imaging.stop s
         else resumeTest { s with imaging := { s.imaging with stop := .none, move := none } }) := by
  unfold clearFault
  rw [if_pos ⟨stopped, fault, gone⟩]
  rfl

/-- Settles O52: the lamp change, CLEAR by its cases, and the resume test by the film. -/
theorem lampChangedAndClear : Obligations.LampChangedAndClear := by
  refine ⟨?events, ?resume⟩
  case events =>
    intro s after i again film
    have isFilm : i.stop.isFilm = true ↔ film := isFilm_iff _
    have notFilm : i.stop.isFilm = false ↔ ¬ film := isFilm_false _
    have restarts {why : StopReason} {t : State} (stopped : i.st = .stopped) (is : i.stop = why)
        (kind : why = .turretFault ∨ why = .lensFault) (early : i.stage ≠ .done) (goes : restart why s = t) :
        exec .clear s = after t := by
      have fault : i.stop.isFilm = false := by rcases kind with rfl | rfl <;> rw [is] <;> rfl
      have gone : causeGone i = true := if_neg (by rcases kind with rfl | rfl <;> simp [is])
      have early_ : raisedInStarting i = true := decide_eq_true ⟨early, is ▸ kind⟩
      rw [exec_clear, clearFault_taken stopped fault gone, if_pos early_, show s.imaging.stop = why from is, goes]
    refine ⟨exec_lampChanged s, fun not_ => ?_, fun stopped is early => ?_, fun stopped is early => ?_,
      fun stopped other cleared late => ?_⟩
    · have ignored : clearFault s = s := by
        refine clearFault_ignored (not_.imp_right (Or.imp isFilm.2 fun ⟨lamp, kept⟩ => ?_))
        exact (if_pos lamp).trans kept
      rw [exec_clear, ignored]
    · refine restarts stopped is (.inl rfl) early ?_
      unfold restart
      dsimp only
      rw [if_pos rfl, startMove_sends rfl]
      rfl
    · refine restarts stopped is (.inr rfl) early ?_
      unfold restart
      dsimp only
      rw [if_neg (by decide), startMove_sends rfl]
      rfl
    · have gone : causeGone i = true := by
        unfold causeGone
        split
        · next lamp => exact cleared lamp
        · rfl
      have late_ : raisedInStarting i = false := decide_eq_false fun ⟨early, kind⟩ => early (late kind)
      rw [exec_clear, clearFault_taken stopped (notFilm.2 other) gone, late_]
      rfl
  case resume =>
    intro s i f stops gate
    have stop {why : StopReason} {code : Nat} (reason : filmReason s = why) (some_ : why ≠ .none) (coded : why.code = code) :
        stops why code := by
      show resumeTest s = _
      rw [resumeTest_stops reason some_, enterStopped_eq, coded]
    refine ⟨fun unloaded => ?_, fun loaded down => ?_, fun open_ out => ?_, fun open_ usable => ?_⟩
    · exact stop (filmReason_unloaded unloaded) (by decide) rfl
    · exact stop (filmReason_gate loaded ((gate_false f).2 down)) (by decide) rfl
    · exact stop (filmReason_filmOut ((gate_iff f).2 open_) out) (by decide) rfl
    · exact resumeTest_resumes (filmReason_none ((gate_iff f).2 open_) usable)

end Sys2Proof.Proofs

/-! PROOFS. The line buffer (08): the pins of a record, records that leave, the two consumers, and what the sequencer's work
and the proof channel's leave an event with. -/

namespace Sys2Proof.Proofs

open Sys2Proof.Machine

/-! ## Pins (R91, R137) -/

theorem positions_nodup (r : Record) : r.positions.Nodup := List.Nodup.filter _ (by decide)

/-- Pins taken at some positions, each once: each falls by one, and a command is sent for each that falls to 0. -/
theorem foldl_unpin (ps : List Pos) (once : ps.Nodup) (s : State) :
    (∀ p : Pos, (ps.foldl (fun t p => unpin p t) s).mount.pos[p] =
      { s.mount.pos[p] with pins := if p ∈ ps then s.mount.pos[p].pins - 1 else s.mount.pos[p].pins }) ∧
    (ps.foldl (fun t p => unpin p t) s).port =
      s.port ++ (ps.filter fun p => decide (s.mount.pos[p].pins = 1)).map .positionUnlock := by
  induction ps generalizing s with
  | nil => simp
  | cons a rest ih =>
    obtain ⟨fresh, once⟩ := List.nodup_cons.1 once
    obtain ⟨pos, port⟩ := ih once (unpin a s)
    have sent : (unpin a s).port = s.port ++ if s.mount.pos[a].pins = 1 then [.positionUnlock a] else [] := by
      unfold unpin
      dsimp only
      split
      · next zero =>
        have not_ : s.mount.pos[a].pins ≠ 1 := fun one => by rw [one] at zero; cases zero
        rw [if_neg not_, List.append_nil]
      · split
        · rfl
        · exact (List.append_nil _).symm
    constructor
    · intro p
      rw [List.foldl_cons, pos p, unpin_pos]
      by_cases is : a = p
      · subst is
        simp [fresh]
      · simp [is, Ne.symm is]
    · have kept : ∀ p ∈ rest, decide ((unpin a s).mount.pos[p].pins = 1) = decide (s.mount.pos[p].pins = 1) := by
        intro p mem
        rw [unpin_pos, if_neg (fun is : a = p => fresh (is ▸ mem))]
      rw [List.foldl_cons, port, sent, List.filter_congr kept, List.filter_cons]
      by_cases one : s.mount.pos[a].pins = 1
      · rw [if_pos one, if_pos (decide_eq_true one), List.append_assoc]
        rfl
      · rw [if_neg one, if_neg (by rw [decide_eq_false one]; decide), List.append_nil]

theorem unpinRecord_pos (r : Record) (s : State) (p : Pos) :
    (unpinRecord r s).mount.pos[p] =
      { s.mount.pos[p] with pins := if p ∈ r.positions then s.mount.pos[p].pins - 1 else s.mount.pos[p].pins } :=
  (foldl_unpin r.positions (positions_nodup r) s).1 p

theorem unpinRecord_port (r : Record) (s : State) :
    (unpinRecord r s).port =
      s.port ++ (r.positions.filter fun p => decide (s.mount.pos[p].pins = 1)).map .positionUnlock :=
  (foldl_unpin r.positions (positions_nodup r) s).2

theorem pin_frame (p : Pos) (s : State) :
    ∃ pos port, pin p s = { s with mount := { s.mount with pos := pos }, port := port } := by
  unfold pin
  dsimp only
  split <;> exact ⟨_, _, rfl⟩

/-- Pins added at some positions, each once: each rises by one, and a command is sent for each that had none. -/
theorem foldl_pin (ps : List Pos) (once : ps.Nodup) (s : State) :
    (∀ p : Pos, (ps.foldl (fun t p => pin p t) s).mount.pos[p] =
      { s.mount.pos[p] with pins := if p ∈ ps then s.mount.pos[p].pins + 1 else s.mount.pos[p].pins }) ∧
    (∃ pos, ps.foldl (fun t p => pin p t) s =
      { s with mount := { s.mount with pos := pos }
               port := s.port ++ (ps.filter fun p => decide (s.mount.pos[p].pins = 0)).map .positionLock }) := by
  induction ps generalizing s with
  | nil => exact ⟨fun p => by simp, s.mount.pos, by simp⟩
  | cons a rest ih =>
    obtain ⟨fresh, once⟩ := List.nodup_cons.1 once
    obtain ⟨pos, last, all⟩ := ih once (pin a s)
    obtain ⟨first, port, frame⟩ := pin_frame a s
    have sent : (pin a s).port = s.port ++ if s.mount.pos[a].pins = 0 then [.positionLock a] else [] := by
      unfold pin
      dsimp only
      split
      · rfl
      · exact (List.append_nil _).symm
    constructor
    · intro p
      rw [List.foldl_cons, pos p, pin_pos]
      by_cases is : a = p
      · subst is
        simp [fresh]
      · simp [is, Ne.symm is]
    · have kept : ∀ p ∈ rest, decide ((pin a s).mount.pos[p].pins = 0) = decide (s.mount.pos[p].pins = 0) := by
        intro p mem
        rw [pin_pos, if_neg (fun is : a = p => fresh (is ▸ mem))]
      refine ⟨last, ?_⟩
      rw [List.foldl_cons, all, sent, List.filter_congr kept, List.filter_cons, frame]
      by_cases zero : s.mount.pos[a].pins = 0
      · rw [if_pos zero, if_pos (decide_eq_true zero), List.append_assoc]
        rfl
      · rw [if_neg zero, if_neg (by rw [decide_eq_false zero]; decide), List.append_nil]

theorem pinRecord_pos (r : Record) (s : State) (p : Pos) :
    (pinRecord r s).mount.pos[p] =
      { s.mount.pos[p] with pins := if p ∈ r.positions then s.mount.pos[p].pins + 1 else s.mount.pos[p].pins } :=
  (foldl_pin r.positions (positions_nodup r) s).1 p

theorem pinRecord_frame (r : Record) (s : State) :
    ∃ pos, pinRecord r s =
      { s with mount := { s.mount with pos := pos }
               port := s.port ++ (r.positions.filter fun p => decide (s.mount.pos[p].pins = 0)).map .positionLock } :=
  (foldl_pin r.positions (positions_nodup r) s).2

/-! ## Leaving (R141) -/

/-- The records that stay: those with a field due or busy. -/
def staying (bs : List Record) : List Record := bs.filter fun r => r.imgLive || r.proofLive

theorem work_sweep (s : State) : work (sweep s) = work { s with buffer := staying s.buffer } := by
  unfold sweep
  dsimp only
  rw [work_checkJobs, work_refreshEngine]
  rfl

theorem sweep_buffer (s : State) : (sweep s).buffer = staying s.buffer := buffer_of_work (work_sweep s)
theorem sweep_proof (s : State) : (sweep s).proof = s.proof :=
  proof_of_work (s := { s with buffer := staying s.buffer }) (work_sweep s)

theorem sweep_outside (s : State) : (sweep s).outside = ({ s with buffer := staying s.buffer } : State).outside := by
  obtain ⟨st, is⟩ := refreshEngine_frame { s with buffer := staying s.buffer }
  show (checkJobs _ (refreshEngine { s with buffer := staying s.buffer })).outside = _
  rw [checkJobs_outside, is]
  rfl

theorem work_of_outside {s t : State} (same : t.outside = s.outside) : work t = work s := by
  simp only [State.outside, Prod.mk.injEq] at same
  obtain ⟨mount, buffer, imaging, film, proof, -⟩ := same
  simp only [work, mount, buffer, imaging, film, proof]

/-- A record that is not COMPOSED, CANCELLED or FAULTED is not checked (R71, R75). -/
theorem checkJob_active (j : JobId) (s : State)
    (active : s.jobs[j].state ≠ .composed ∧ s.jobs[j].state ≠ .cancelled ∧ s.jobs[j].state ≠ .faulted) :
    checkJob j s = s := by
  obtain ⟨notComposed, notCancelled, notFaulted⟩ := active
  unfold checkJob
  dsimp only
  split
  · next is => exact absurd is notComposed
  · next is => exact absurd is notCancelled
  · next is => exact absurd is notFaulted
  · rfl

/-- Checks made of jobs leave a record that is not COMPOSED, CANCELLED or FAULTED as it is (R71, R75). -/
theorem checkJobs_active (js : List JobId) (k : JobId) (s : State)
    (active : s.jobs[k].state ≠ .composed ∧ s.jobs[k].state ≠ .cancelled ∧ s.jobs[k].state ≠ .faulted) :
    (checkJobs js s).jobs[k] = s.jobs[k] := by
  unfold checkJobs
  induction js generalizing s with
  | nil => rfl
  | cons j rest ih =>
    have one : (checkJob j s).jobs[k] = s.jobs[k] := by
      by_cases is : j = k
      · subst is
        rw [checkJob_active j s active]
      · exact checkJob_other j k s is
    exact (ih (checkJob j s) (by rw [one]; exact active)).trans one

theorem sweep_jobs_active (k : JobId) (s : State)
    (active : s.jobs[k].state ≠ .composed ∧ s.jobs[k].state ≠ .cancelled ∧ s.jobs[k].state ≠ .faulted) :
    (sweep s).jobs[k] = s.jobs[k] := by
  obtain ⟨st, is⟩ := refreshEngine_frame { s with buffer := staying s.buffer }
  have same : (refreshEngine { s with buffer := staying s.buffer }).jobs = s.jobs := by rw [is]
  show (checkJobs _ (refreshEngine { s with buffer := staying s.buffer })).jobs[k] = _
  rw [checkJobs_active _ _ _ (by rw [same]; exact active), same]

/-! ## The imaging consumer (R138) -/

theorem unpin_withBuffer (p : Pos) (bs : List Record) (s : State) :
    unpin p { s with buffer := bs } = { unpin p s with buffer := bs } := by
  unfold unpin
  dsimp only
  split
  · rfl
  · split <;> rfl

theorem unpinRecord_withBuffer (r : Record) (bs : List Record) (s : State) :
    unpinRecord r { s with buffer := bs } = { unpinRecord r s with buffer := bs } := by
  unfold unpinRecord
  induction r.positions generalizing s with
  | nil => rfl
  | cons p rest ih => rw [List.foldl_cons, unpin_withBuffer, ih]; rfl

/-- The line counted as exposed, for a TEXT record (R70). -/
def countExposed (r : Record) (s : State) : State :=
  match r.text with
  | some _ => s.modJob r.job fun q => { q with exposed := satSucc Config.max16 q.exposed }
  | none => s

theorem finishImaging_some {s : State} {r : Record} (inHand : imgRecord s = some r) :
    finishImaging s = sweep (countExposed r { unpinRecord r s with buffer := s.buffer.map Record.imgDone }) := by
  unfold finishImaging countExposed
  rw [inHand]
  dsimp only
  rw [unpinRecord_withBuffer] <;> rfl

theorem finishImaging_none {s : State} (idle : imgRecord s = none) : finishImaging s = s := by
  unfold finishImaging
  rw [idle]

theorem countExposed_outside (r : Record) (s : State) : (countExposed r s).outside = s.outside := by
  unfold countExposed
  split <;> rfl

/-- The sequencer's finish of a record takes its pins and its record, and leaves all else of the machine (R138). -/
theorem finishImaging_outside {s : State} {r : Record} (inHand : imgRecord s = some r) :
    (finishImaging s).outside =
      ({ unpinRecord r s with buffer := staying (s.buffer.map Record.imgDone) } : State).outside := by
  rw [finishImaging_some inHand, sweep_outside]
  unfold countExposed
  split <;> rfl

/-- A record without its proof field: what the imaging consumer and the pins see of it. -/
def unproofed (r : Record) : Record := { r with proof := .notDue }

/-- The records due or at work for imaging, without their proof fields. -/
def imagingView (bs : List Record) : List Record := (bs.filter (·.imgLive)).map unproofed

theorem imagingView_staying (bs : List Record) : imagingView (staying bs) = imagingView bs := by
  unfold imagingView staying
  rw [List.filter_filter]
  refine congrArg (List.map _) (List.filter_congr fun r _ => ?_)
  cases r.imgLive <;> rfl

/-- A record changed in its proof field alone is the same for the imaging consumer. -/
theorem imagingView_map {f : Record → Record} (proofOnly : ∀ r, unproofed (f r) = unproofed r) (bs : List Record) :
    imagingView (bs.map f) = imagingView bs := by
  have live (r : Record) : (f r).imgLive = r.imgLive := by
    have same := congrArg Record.imgLive (proofOnly r)
    exact same
  unfold imagingView
  rw [List.filter_map, List.map_map]
  have same : (Record.imgLive ∘ f) = Record.imgLive := funext live
  rw [same]
  exact List.map_congr_left fun r _ => proofOnly r

theorem imagingView_cons (r : Record) (bs : List Record) :
    imagingView (r :: bs) = (if r.imgLive = true then [unproofed r] else []) ++ imagingView bs := by
  unfold imagingView
  by_cases live : r.imgLive = true <;> simp [live]

theorem imagingView_beginProof (bs : List Record) : imagingView (beginProof bs) = imagingView bs := by
  induction bs with
  | nil => rfl
  | cons r rest ih =>
    unfold beginProof
    split
    · rw [imagingView_cons, imagingView_cons]
      rfl
    · rw [imagingView_cons, imagingView_cons, ih]

theorem imagingView_excuse (s : State) (bs : List Record) : imagingView (excuse s bs).1 = imagingView bs := by
  induction bs with
  | nil => rfl
  | cons r rest ih =>
    unfold excuse
    split
    · split
      · rw [imagingView_cons, imagingView_cons, ← ih]
        rfl
      · rfl
    · rw [imagingView_cons, imagingView_cons, ← ih]

theorem mem_imagingView (bs : List Record) (v : Record) :
    v ∈ imagingView bs ↔ ∃ r ∈ bs, r.imgLive = true ∧ unproofed r = v := by
  simp only [imagingView, List.mem_map, List.mem_filter, and_assoc]

/-- No record is due for imaging. -/
theorem noneDue_iff (bs : List Record) : (∀ r ∈ bs, r.img ≠ .due) ↔ ∀ v ∈ imagingView bs, v.img ≠ .due := by
  constructor
  · intro none_ v mem
    obtain ⟨r, there, -, rfl⟩ := (mem_imagingView bs v).1 mem
    exact none_ r there
  · intro none_ r mem due
    exact none_ (unproofed r) ((mem_imagingView bs _).2 ⟨r, mem, by simp [Record.imgLive, due], rfl⟩) due

/-! ## The proof channel leaves the sequencer's work alone (R139, R140, R180) -/

/-- The sequencer's part of the machine: the mount table, the records due or at work for imaging, the sequencer, the film. -/
def imagingWork (s : State) : Vector Position 6 × Nat × List Record × Imaging × Film :=
  (s.mount.pos, s.mount.flashSeq, imagingView s.buffer, s.imaging, s.film)

theorem imagingWork_of_work {s t : State} (same : work t = work s) : imagingWork t = imagingWork s := by
  simp only [imagingWork, pos_of_work same, flashSeq_of_work same, buffer_of_work same, imaging_of_work same,
    film_of_work same]

theorem imagingWork_withBuffer {s : State} {bs : List Record} (same : imagingView bs = imagingView s.buffer) :
    imagingWork { s with buffer := bs } = imagingWork s := by
  simp only [imagingWork, same]

theorem imagingWork_sweep (s : State) : imagingWork (sweep s) = imagingWork s :=
  (imagingWork_of_work (work_sweep s)).trans (imagingWork_withBuffer (imagingView_staying _))

theorem imagingWork_foldl_modJob {α : Type} (f : α → Job → Job) (j : α → JobId) (as : List α) (s : State) :
    imagingWork (as.foldl (fun t a => t.modJob (j a) (f a)) s) = imagingWork s :=
  imagingWork_of_work (foldl_work (f := fun t a => t.modJob (j a) (f a)) (fun _ _ => rfl) as s)

theorem imagingWork_excuseProofs (s : State) : imagingWork (excuseProofs s) = imagingWork s := by
  unfold excuseProofs
  dsimp only
  split
  · rfl
  · rw [imagingWork_sweep, imagingWork_foldl_modJob]
    exact imagingWork_withBuffer (imagingView_excuse s s.buffer)

theorem imagingWork_present (cs : List Byte) (s : State) : imagingWork (present cs s) = imagingWork s := rfl

theorem imagingWork_beginPrinting (j : JobId) (t : TextLine) (s : State) :
    imagingWork (beginPrinting j t s) = imagingWork s := by
  unfold beginPrinting
  dsimp only
  split
  · exact (imagingWork_present _ _).trans rfl
  · exact imagingWork_present _ s

theorem imagingWork_askProof (s : State) : imagingWork (askProof s) = imagingWork s := by
  unfold askProof
  split
  · rfl
  · dsimp only
    split
    · rw [imagingWork_beginPrinting]
      exact imagingWork_withBuffer (imagingView_beginProof _)
    · rfl

theorem imagingWork_runProof (s : State) : imagingWork (runProof s) = imagingWork s := by
  unfold runProof
  split
  · exact imagingWork_askProof s
  · exact imagingWork_excuseProofs s

theorem imagingWork_giveBackProof (s : State) : imagingWork (giveBackProof s) = imagingWork s := by
  refine (imagingWork_sweep _).trans (imagingWork_withBuffer (imagingView_map (fun r => ?_) _))
  unfold Record.proofAgain
  split <;> rfl

theorem imagingWork_giveBackPrinting (s : State) : imagingWork (giveBackPrinting s) = imagingWork s := by
  unfold giveBackPrinting
  split
  · rfl
  · exact imagingWork_giveBackProof _

theorem imagingWork_finishProof (s : State) : imagingWork (finishProof s) = imagingWork s := by
  unfold finishProof
  split
  · rfl
  · rw [imagingWork_sweep]
    refine imagingWork_withBuffer (s := s) (imagingView_map (fun r => ?_) _)
    unfold Record.proofDone
    split <;> rfl

/-- What follows the sequencer's work and the proof channel's in an event leaves both (R97, R58, R94, R49). -/
theorem work_settle (before : Nat) (s : State) : work (settle before s) = work (runProof (settleImaging s)) := by
  unfold settle
  rw [work_flowIfFreed, work_refreshMount, work_trySelect, work_refreshEngine]

theorem imagingWork_settle (before : Nat) (s : State) : imagingWork (settle before s) = imagingWork (settleImaging s) :=
  (imagingWork_of_work (work_settle before s)).trans (imagingWork_runProof _)

/-! ## The sequencer's work in one event (R146) -/

/-- The records that wait for the sequencer. -/
def dueCount (bs : List Record) : Nat := bs.countP fun r => decide (r.img = .due)

theorem dueCount_zero (bs : List Record) : dueCount bs = 0 ↔ ∀ r ∈ bs, r.img ≠ .due := by
  simp [dueCount, List.countP_eq_zero]

theorem dueCount_finished (bs : List Record) : dueCount (staying (bs.map Record.imgDone)) ≤ dueCount bs := by
  refine (List.filter_sublist.countP_le).trans ?_
  rw [List.countP_map]
  refine List.countP_mono_left fun r _ due => ?_
  simp only [Function.comp_apply, Record.imgDone] at due
  split at due
  · cases of_decide_eq_true due
  · exact due

/-- A record that waits is given to the sequencer that asks: one fewer waits, and one is in hand (R138). -/
theorem askImaging_takes {bs : List Record} (some_ : dueCount bs ≠ 0) :
    dueCount (beginImg bs) + 1 = dueCount bs ∧ ∃ r ∈ beginImg bs, r.img = .busy := by
  induction bs with
  | nil => exact absurd rfl some_
  | cons r rest ih =>
    unfold beginImg
    by_cases due : r.img = .due
    · rw [if_pos due]
      exact ⟨by simp [dueCount, due], _, List.mem_cons_self, rfl⟩
    · have same : dueCount (r :: rest) = dueCount rest := by simp [dueCount, due]
      obtain ⟨fewer, b, mem, busy⟩ := ih (same ▸ some_)
      rw [if_neg due]
      refine ⟨?_, b, List.mem_cons_of_mem _ mem, busy⟩
      rw [same, ← fewer]
      simp [dueCount, due]

theorem beginImg_of_none {bs : List Record} (none_ : dueCount bs = 0) : beginImg bs = bs := by
  rw [dueCount_zero] at none_
  induction bs with
  | nil => rfl
  | cons r rest ih =>
    unfold beginImg
    rw [if_neg (none_ r List.mem_cons_self), ih fun b mem => none_ b (List.mem_cons_of_mem _ mem)]

/-- A state the sequencer is left in by a record's work: at work or stopped, or IDLE with no more records waiting and the
pending cut as it stood. -/
def Worked (due : Nat) (pending : Bool) (t : State) : Prop :=
  t.imaging.st = .idle → dueCount t.buffer ≤ due ∧ t.film.pendingCut = pending

theorem Worked.busy {due : Nat} {pending : Bool} {t : State} (busy : t.imaging.st ≠ .idle) : Worked due pending t :=
  fun idle => absurd idle busy

theorem finishImaging_waiting (s : State) :
    dueCount (finishImaging s).buffer ≤ dueCount s.buffer ∧ (finishImaging s).film = s.film ∧
      (finishImaging s).imaging = s.imaging := by
  cases inHand : imgRecord s with
  | none => rw [finishImaging_none inHand]; exact ⟨le_rfl, rfl, rfl⟩
  | some r =>
    obtain ⟨pos, port, is⟩ := unpinRecord_frame r s
    have same := work_of_outside (finishImaging_outside inHand)
    rw [buffer_of_work same, film_of_work same, imaging_of_work same, is]
    exact ⟨dueCount_finished _, rfl, rfl⟩

theorem startMove_st (m : ImgMove) (s : State) : (startMove m s).imaging.st = s.imaging.st := by
  unfold startMove
  dsimp only
  split <;> rfl

theorem flashElement_st (e : Element) (s : State) : (flashElement e s).imaging.st = s.imaging.st := by
  unfold flashElement
  dsimp only
  rw [startMove_st]
  split <;> rfl

theorem lineExposed_worked (s : State) : Worked (dueCount s.buffer) s.film.pendingCut (lineExposed s) := by
  intro _
  unfold lineExposed
  dsimp only
  split
  · obtain ⟨fewer, film, -⟩ := finishImaging_waiting (s.modFilm _)
    have pending := congrArg Film.pendingCut film
    exact ⟨fewer, pending⟩
  · obtain ⟨fewer, film, -⟩ := finishImaging_waiting s
    exact ⟨fewer, congrArg Film.pendingCut film⟩

theorem runElement_worked {s : State} (busy : s.imaging.st ≠ .idle) :
    Worked (dueCount s.buffer) s.film.pendingCut (runElement s) := by
  have moves (m : ImgMove) : Worked (dueCount s.buffer) s.film.pendingCut (startMove m s) :=
    .busy (by rw [startMove_st]; exact busy)
  have flashes (e : Element) : Worked (dueCount s.buffer) s.film.pendingCut (flashElement e s) :=
    .busy (by rw [flashElement_st]; exact busy)
  unfold runElement
  split
  · exact lineExposed_worked s
  · split
    · split
      · exact moves _
      · split
        · exact moves _
        · exact flashes _
    · split
      · exact moves _
      · exact flashes _

theorem beginSetting_worked (s : State) : Worked (dueCount s.buffer) s.film.pendingCut (beginSetting s) :=
  runElement_worked (s := s.modImg fun i => { i with st := .setting, elem := 0 }) (by simp [State.modImg])

theorem lowTest_imaging (s : State) : (lowTest s).imaging = s.imaging := by
  unfold lowTest
  dsimp only
  split <;> rfl

theorem sendAdvance_imaging (n : Nat) (s : State) : (sendAdvance n s).imaging = s.imaging := lowTest_imaging _

theorem sendReverse_imaging (n : Nat) (s : State) : (sendReverse n s).imaging = s.imaging := rfl

theorem cutFor_imaging (why : CutPurpose) (s : State) :
    (cutFor why s).imaging = { s.imaging with st := .cutting } := by
  unfold cutFor beginCut
  dsimp only
  rw [sendAdvance_imaging]
  rfl

theorem cutFor_worked (why : CutPurpose) (due : Nat) (pending : Bool) (s : State) : Worked due pending (cutFor why s) :=
  .busy (by rw [cutFor_imaging]; simp)

theorem enterStopped_st (r : StopReason) (s : State) : (enterStopped r s).imaging.st = .stopped := rfl

theorem reverseLine_worked {s : State} (j : JobId) (l : Int) (busy : s.imaging.st ≠ .idle) :
    Worked (dueCount s.buffer) s.film.pendingCut (reverseLine j l s) := by
  unfold reverseLine
  dsimp only
  split
  · exact .busy busy
  · split
    · exact beginSetting_worked (s.modJob j _)
    · exact .busy busy

theorem moveLine_worked {s : State} (j : JobId) (l : Int) (busy : s.imaging.st ≠ .idle) :
    Worked (dueCount s.buffer) s.film.pendingCut (moveLine j l s) := by
  unfold moveLine
  dsimp only
  split
  · split
    · exact .busy (by rw [stopFilmOut, enterStopped_st]; decide)
    · exact cutFor_worked _ _ _ s
  · split
    · exact .busy (by rw [sendAdvance_imaging]; exact busy)
    · split
      · exact beginSetting_worked s
      · exact reverseLine_worked j l busy

theorem testSegments_worked {s : State} (j : JobId) (t : TextLine) (busy : s.imaging.st ≠ .idle) :
    Worked (dueCount s.buffer) s.film.pendingCut (testSegments j t s) := by
  unfold testSegments testLength
  dsimp only
  split
  · exact cutFor_worked _ _ _ s
  · split
    · exact cutFor_worked _ _ _ s
    · exact moveLine_worked j t.move busy

theorem beginRecord_worked (r : Record) (s : State) :
    Worked (dueCount s.buffer) s.film.pendingCut (beginRecord r s) := by
  unfold beginRecord
  split
  · exact testSegments_worked (s := s.modImg _) r.job _ (by simp [State.modImg])
  · split
    · intro _
      obtain ⟨fewer, film, -⟩ := finishImaging_waiting s
      exact ⟨fewer, congrArg Film.pendingCut film⟩
    · exact cutFor_worked _ _ _ s

theorem runImaging_busy (n : Nat) {s : State} (busy : s.imaging.st ≠ .idle) : runImaging n s = s := by
  cases n with
  | zero => rfl
  | succ n => exact if_pos busy

/-- With fuel for each record that waits and for the pending cut, an IDLE sequencer is left with neither (R146). -/
theorem runImaging_rests (n : Nat) (s : State)
    (fuel : dueCount s.buffer + (if s.film.pendingCut = true then 1 else 0) ≤ n) :
    Worked 0 false (runImaging n s) := by
  induction n generalizing s with
  | zero =>
    intro _
    show dueCount s.buffer ≤ 0 ∧ s.film.pendingCut = false
    cases pending : s.film.pendingCut <;> simp_all
  | succ n ih =>
    have left {due : Nat} {t : State} (worked : Worked due false t) (spent : due ≤ n) : Worked 0 false (runImaging n t) := by
      by_cases idle : t.imaging.st = .idle
      · obtain ⟨fewer, clear⟩ := worked idle
        exact ih t (by rw [clear, if_neg Bool.false_ne_true]; omega)
      · rw [runImaging_busy n idle]
        exact .busy idle
    unfold runImaging
    split
    · next busy => exact .busy busy
    · split
      · next pending =>
        rw [if_pos pending] at fuel
        refine left (due := dueCount s.buffer) ?_ (by omega)
        unfold cutPending
        split
        · exact fun _ => ⟨le_rfl, rfl⟩
        · exact cutFor_worked _ _ _ s
      · next clear =>
        rw [Bool.not_eq_true] at clear
        rw [clear, if_neg Bool.false_ne_true] at fuel
        by_cases none_ : dueCount s.buffer = 0
        · split
          · exact fun _ => ⟨none_.le, clear⟩
          · next r _ =>
            have same : askImaging s = s := by rw [askImaging, beginImg_of_none none_]
            rw [same]
            have worked := beginRecord_worked r s
            rw [clear] at worked
            exact left worked (by omega)
        · obtain ⟨fewer, b, mem, busy⟩ := askImaging_takes none_
          split
          · next idle => exact absurd (decide_eq_true busy) (List.find?_eq_none.1 idle b mem)
          · next r _ =>
            have worked := beginRecord_worked r (askImaging s)
            rw [show (askImaging s).film.pendingCut = false from clear] at worked
            exact left worked (show dueCount (beginImg s.buffer) ≤ n by omega)

/-- What follows an event leaves an IDLE sequencer without work (R146). -/
theorem settle_rests (before : Nat) (s : State) (idle : (settle before s).imaging.st = .idle) :
    (settle before s).film.pendingCut = false ∧ ∀ r ∈ (settle before s).buffer, r.img ≠ .due := by
  have same := imagingWork_settle before s
  simp only [imagingWork, Prod.mk.injEq] at same
  obtain ⟨-, -, view, imaging, film⟩ := same
  have enough : dueCount s.buffer + (if s.film.pendingCut = true then 1 else 0) ≤ imagingFuel s := by
    have some_ : dueCount s.buffer ≤ s.buffer.length := List.countP_le_length
    unfold imagingFuel
    split <;> omega
  obtain ⟨none_, clear⟩ := runImaging_rests _ _ enough (imaging ▸ idle)
  rw [noneDue_iff, view, ← noneDue_iff, ← dueCount_zero, film]
  exact ⟨clear, Nat.le_zero.1 none_⟩

/-! ## Cuts asked for (R172) -/

theorem askCut_empty {s : State} (empty : s.film.take = []) : askCut s = s := by
  unfold askCut
  rw [empty]
  rfl

theorem askCut_taken {s : State} (some_ : s.film.take ≠ []) :
    askCut s = settle s.store.freeCount { s with film := { s.film with pendingCut := true } } :=
  if_neg (by rwa [List.isEmpty_iff])

/-- Settles O36: the two asks, and the rest that what follows an event leaves. -/
theorem cutAskedFor : Obligations.CutAskedFor := by
  refine ⟨?asks, settle_rests⟩
  case asks =>
    intro d s asked
    refine ⟨fun empty => ?_, fun some_ => ?_, fun takes allowed => ⟨fun empty => ?_, fun some_ => ?_⟩⟩
    · rw [exec_cutButton, askCut_empty empty]
    · rw [exec_cutButton, askCut_taken some_]
    · have none_ : askCut (restartSilence d s) = restartSilence d s := askCut_empty empty
      have run : exec (.cut d []) s = .next (requestCut d [] (restartSilence d s)) :=
        exec_handled (.cut d []) d _ s rfl rfl takes allowed
      rw [run, requestCut, none_]
      rfl
    · have run : exec (.cut d []) s = .next (requestCut d [] (restartSilence d s)) :=
        exec_handled (.cut d []) d _ s rfl rfl takes allowed
      have taken : askCut (restartSilence d s) = asked (restartSilence d s) := askCut_taken some_
      rw [run, requestCut, taken]

end Sys2Proof.Proofs

/-! PROOFS. The proof channel (11): its requests and its lines, column by column (O37). -/

namespace Sys2Proof.Proofs

open Sys2Proof.Machine

/-! ## Numbers in columns (R182) -/

/-- The character in a column of a number in decimal, `place` columns from the last: a blank before the first digit. -/
def columnOf (n place : Nat) : Byte := if place ≠ 0 ∧ n < 10 ^ place then 0x20 else byteOf (0x30 + n / 10 ^ place % 10)

theorem decimalDigits_length (fuel n : Nat) : (decimalDigits fuel n).length ≤ fuel := by
  induction fuel generalizing n with
  | zero => exact le_rfl
  | succ fuel ih =>
    unfold decimalDigits
    split
    · simp
    · have := ih (n / 10)
      simp
      omega

theorem columnOf_tenth {n : Nat} (long : 10 ≤ n) (place : Nat) : columnOf n (place + 1) = columnOf (n / 10) place := by
  have digits : n / 10 ^ (place + 1) = n / 10 / 10 ^ place := by rw [Nat.pow_succ', Nat.div_div_eq_div_mul]
  have less : n < 10 ^ (place + 1) ↔ n / 10 < 10 ^ place := by
    rw [Nat.pow_succ, Nat.div_lt_iff_lt_mul (by decide)]
  unfold columnOf
  rw [digits]
  refine if_congr ?_ rfl rfl
  constructor
  · rintro ⟨-, short⟩
    refine ⟨?_, less.1 short⟩
    rintro rfl
    rw [zero_add, pow_one] at short
    omega
  · rintro ⟨-, short⟩
    exact ⟨Nat.succ_ne_zero _, less.2 short⟩

/-- The digits of a number, filled up with blanks, stand in their columns. -/
theorem columns_eq (width fuel n : Nat) (some_ : 1 ≤ width) (enough : width ≤ fuel) (fits : n < 10 ^ width) :
    List.replicate (width - (decimalDigits fuel n).length) 0x20 ++ decimalDigits fuel n =
      (List.range width).map fun column => columnOf n (width - 1 - column) := by
  induction width generalizing fuel n with
  | zero => cases some_
  | succ width ih =>
    obtain ⟨fuel, rfl⟩ : ∃ f, fuel = f + 1 := ⟨fuel - 1, by omega⟩
    have last : columnOf n (width + 1 - 1 - width) = byteOf (48 + n % 10) := by
      simp [columnOf]
    rw [List.range_succ, List.map_append, List.map_singleton, last]
    by_cases short : n < 10
    · have digit : decimalDigits (fuel + 1) n = [byteOf (48 + n % 10)] := by rw [decimalDigits, if_pos short]; rfl
      have blank : ∀ column ∈ List.range width, columnOf n (width + 1 - 1 - column) = 0x20 := by
        intro column mem
        rw [List.mem_range] at mem
        refine if_pos ⟨by omega, short.trans_le ?_⟩
        exact Nat.le_self_pow (by omega) 10
      rw [digit, List.map_congr_left blank]
      simp
    · have digits : decimalDigits (fuel + 1) n = decimalDigits fuel (n / 10) ++ [byteOf (48 + n % 10)] := by
        rw [decimalDigits, if_neg short]
      have wide : 1 ≤ width := by
        rcases Nat.eq_zero_or_pos width with rfl | some_
        · rw [zero_add, pow_one] at fits
          omega
        · exact some_
      have rest := ih fuel (n / 10) wide (by omega) (by rw [Nat.div_lt_iff_lt_mul (by decide), ← Nat.pow_succ]; exact fits)
      have same : ∀ column ∈ List.range width,
          columnOf n (width + 1 - 1 - column) = columnOf (n / 10) (width - 1 - column) := by
        intro column mem
        rw [List.mem_range] at mem
        rw [show width + 1 - 1 - column = width - 1 - column + 1 by omega, columnOf_tenth (Nat.not_lt.1 short)]
      rw [digits, List.map_congr_left same, ← rest, List.length_append, List.length_singleton, List.append_assoc,
        Nat.add_sub_add_right]

theorem decimalRight_eq {width n : Nat} (some_ : 1 ≤ width) (narrow : width ≤ 7) (fits : n < 10 ^ width) :
    decimalRight width n = (List.range width).map fun column => columnOf n (width - 1 - column) :=
  columns_eq width 7 n some_ narrow fits

theorem decimalRight_length {width n : Nat} (some_ : 1 ≤ width) (narrow : width ≤ 7) (fits : n < 10 ^ width) :
    (decimalRight width n).length = width := by
  rw [decimalRight_eq some_ narrow fits, List.length_map, List.length_range]

theorem digit_not_blank (n : Nat) : byteOf (0x30 + n % 10) ≠ 0x20 := by
  have small : n % 10 < 10 := Nat.mod_lt _ (by decide)
  generalize n % 10 = k at small
  interval_cases k <;> decide

/-! ## Blanks at the end (R182) -/

theorem trimBlanks_blanks (text : List Byte) : ∃ n, text = trimBlanks text ++ List.replicate n 0x20 := by
  refine ⟨(text.reverse.takeWhile fun b => decide (b = 0x20)).length, ?_⟩
  have blank : text.reverse.takeWhile (fun b => decide (b = 0x20)) =
      List.replicate (text.reverse.takeWhile fun b => decide (b = 0x20)).length 0x20 :=
    List.eq_replicate_of_mem fun b mem => of_decide_eq_true (List.mem_takeWhile_imp (p := fun b : Byte => decide (b = 0x20)) mem)
  have whole := congrArg List.reverse (List.takeWhile_append_dropWhile (p := fun b : Byte => decide (b = 0x20)) (l := text.reverse))
  rw [List.reverse_append, List.reverse_reverse, blank, List.reverse_replicate] at whole
  exact whole.symm

theorem trimBlanks_last (text : List Byte) : (trimBlanks text).getLast? ≠ some 0x20 := by
  unfold trimBlanks
  rw [List.getLast?_reverse]
  intro last
  have stops := List.head?_dropWhile_not (fun b : Byte => decide (b = 0x20)) text.reverse
  rw [last] at stops
  exact absurd stops (by decide)

/-- Blanks at the end are those of the second part, and, where that is blank, of the first. -/
theorem trimBlanks_append (a b : List Byte) :
    trimBlanks (a ++ b) = if trimBlanks b = [] then trimBlanks a else a ++ trimBlanks b := by
  unfold trimBlanks
  rw [List.reverse_append, List.dropWhile_append]
  simp only [List.reverse_eq_nil_iff, List.isEmpty_iff]
  split
  · rfl
  · rw [List.reverse_append, List.reverse_reverse]

theorem trimBlanks_concat {b : Byte} (text : List Byte) (ink : b ≠ 0x20) : trimBlanks (text ++ [b]) = text ++ [b] := by
  have kept : trimBlanks [b] = [b] := by
    show ([b].dropWhile fun b => decide (b = 0x20)).reverse = [b]
    rw [List.dropWhile_cons_of_neg (by simpa using ink)]
    rfl
  rw [trimBlanks_append, kept, if_neg (List.cons_ne_nil _ _)]

theorem trimBlanks_length (text : List Byte) : (trimBlanks text).length ≤ text.length := by
  obtain ⟨n, is⟩ := trimBlanks_blanks text
  have := congrArg List.length is
  rw [List.length_append] at this
  omega

/-! ## The proof line (R182) -/

theorem fitText_length (text : List Byte) : (fitText text).length ≤ 116 := by
  unfold fitText
  split
  · assumption
  · simp

/-- The columns of a proof line before its text, but for the blank before it. -/
def lineHead (marks : Bool) (x : TextLine) : List Byte :=
  decimalRight 5 x.line ++ [0x20] ++ (if marks then marksText x.marks else blanks 5) ++ [0x20] ++ spaceText x.firstSpace

theorem spaceText_ends (w : Option Nat) : ∃ a b c, spaceText w = [a, b, c] ∧ c ≠ 0x20 := by
  cases w with
  | none => exact ⟨0x2D, 0x2D, 0x2D, rfl, by decide⟩
  | some w =>
    have is := decimalRight_eq (width := 3) (n := min 999 w) (by decide) (by decide) (by omega)
    refine ⟨_, _, _, is, ?_⟩
    have digit : columnOf (min 999 w) (3 - 1 - 2) = byteOf (0x30 + min 999 w / 10 ^ 0 % 10) := if_neg fun not_ => not_.1 rfl
    show columnOf (min 999 w) (3 - 1 - 2) ≠ 0x20
    rw [digit]
    exact digit_not_blank _

/-- The proof line is its first fifteen columns, and, where text follows, a blank and the text without trailing blanks. -/
theorem proofLine_eq (marks : Bool) (x : TextLine) :
    let text := trimBlanks (fitText (elementsText none x.elements))
    proofLine marks x = lineHead marks x ++ if text = [] then [] else [0x20] ++ text := by
  intro text
  obtain ⟨a, b, c, is, ink⟩ := spaceText_ends x.firstSpace
  have whole : proofLine marks x = trimBlanks (lineHead marks x ++ [0x20] ++ fitText (elementsText none x.elements)) := rfl
  have head : trimBlanks (lineHead marks x) = lineHead marks x := by
    have ends : lineHead marks x =
        (decimalRight 5 x.line ++ [0x20] ++ (if marks then marksText x.marks else blanks 5) ++ [0x20] ++ [a, b]) ++ [c] := by
      rw [lineHead, is]
      simp
    rw [ends, trimBlanks_concat _ ink]
  have blank : trimBlanks [0x20] = [] := rfl
  rw [whole, trimBlanks_append, trimBlanks_append, if_pos blank, head]
  split
  · rw [List.append_nil]
  · rw [List.append_assoc]

theorem lineHead_columns (x : TextLine) (small : x.line ≤ 65535) :
    ∃ a b c d e p q r : Byte, decimalRight 5 x.line = [a, b, c, d, e] ∧ spaceText x.firstSpace = [p, q, r] := by
  obtain ⟨p, q, r, space, -⟩ := spaceText_ends x.firstSpace
  exact ⟨_, _, _, _, _, p, q, r, decimalRight_eq (by decide) (by decide) (by omega), space⟩

/-! ## The requests (R178) -/

/-- Settles O37: the two requests, the header line, the proof line, and the numbers and names in them. -/
theorem proofChannelSet : Obligations.ProofChannelSet := by
  refine ⟨?config, ?enable, ?header, ?line, fun width n some_ narrow fits => decimalRight_eq some_ narrow fits, by decide,
    fun text => ⟨trimBlanks_blanks text, trimBlanks_last text⟩⟩
  case config =>
    intro d n h m s takes allowed answer
    have run : answer = .next (requestProofConfig d [n, h, m] (restartSilence d s)) :=
      exec_handled (.proofConfig d [n, h, m]) d _ s rfl rfl takes allowed
    refine ⟨fun on => ?_, fun off => ?_⟩
    · have refused : requestProofConfig d [n, h, m] (restartSilence d s) = refuse d 0x38 .enabled (restartSilence d s) :=
        if_pos on
      rw [run, refused]
      rfl
    · have on_ (b : Byte) : byteOf (decide (b ≠ 0)).toNat = if b ≠ 0 then 1 else 0 := by
        by_cases zero : b = 0
        · rw [decide_eq_false (not_not.2 zero), if_neg (not_not.2 zero)]
          rfl
        · rw [decide_eq_true zero, if_pos zero]
          rfl
      have taken : requestProofConfig d [n, h, m] (restartSilence d s) = _ :=
        if_neg (by rw [show (restartSilence d s).proof.enable = false from off]; decide)
      rw [run, taken, on_, on_]
      rfl
  case enable =>
    intro d s takes allowed heard after
    have runOn : exec (.proofEnableOn d []) s = .next ((enableProof heard).reply d 0x39 .ok []) :=
      exec_handled (.proofEnableOn d []) d _ s rfl rfl takes allowed
    have runOff : exec (.proofEnableOff d []) s = .next ((disableProof heard).reply d 0x39 .ok []) :=
      exec_handled (.proofEnableOff d []) d _ s rfl rfl takes allowed
    rw [runOn, runOff]
    refine ⟨fun on => ⟨?_, ?_⟩, fun off => ⟨?_, ?_⟩⟩
    · have same : enableProof heard = heard := if_pos on
      rw [same]
      rfl
    · have goes : disableProof heard =
          settle heard.store.freeCount (giveBackPrinting (heard.modProof fun c => { c with enable := false })) := if_pos on
      rw [goes]
      rfl
    · have goes : enableProof heard =
          settle heard.store.freeCount (heard.modProof fun c => { c with enable := true, newPage := true }) :=
        if_neg (by rw [show heard.proof.enable = false from off]; decide)
      rw [goes]
      rfl
    · have same : disableProof heard = heard :=
        if_neg (by rw [show heard.proof.enable = false from off]; decide)
      rw [same]
      rfl
  case header =>
    intro j r page small cols
    have tag : r.tag.toNat < 10 ^ 5 := r.tag.isLt.trans (by decide)
    obtain ⟨t1, t2, t3, t4, t5, tagIs⟩ : ∃ a b c d e, decimalRight 5 r.tag.toNat = [a, b, c, d, e] :=
      ⟨_, _, _, _, _, decimalRight_eq (by decide) (by decide) tag⟩
    obtain ⟨p1, p2, p3, p4, p5, pageIs⟩ : ∃ a b c d e, decimalRight 5 page = [a, b, c, d, e] :=
      ⟨_, _, _, _, _, decimalRight_eq (by decide) (by decide) (by omega)⟩
    have number : twoDigits j.val = [byteOf (48 + j.val / 10), byteOf (48 + j.val % 10)] := by
      rw [twoDigits, Nat.mod_eq_of_lt (show j.val / 10 < 10 by omega)]
    obtain ⟨m, width, nameIs⟩ : ∃ m : List Byte, m.length = 14 ∧
        r.mode.name ++ List.replicate (14 - r.mode.name.length) 0x20 = m := ⟨_, by cases r.mode <;> rfl, rfl⟩
    obtain ⟨m1, m2, m3, m4, m5, m6, m7, m8, m9, m10, m11, m12, m13, m14, rfl⟩ : ∃ a b c d e f g h i j k l n o,
        m = [a, b, c, d, e, f, g, h, i, j, k, l, n, o] := by
      match m, width with
      | [a, b, c, d, e, f, g, h, i, j, k, l, n, o], _ => exact ⟨a, b, c, d, e, f, g, h, i, j, k, l, n, o, rfl⟩
    have is : headerLine j r page =
        [0x4A, 0x4F, 0x42, 0x20, byteOf (48 + j.val / 10), byteOf (48 + j.val % 10), 0x20, 0x20, 0x44, 0x45, 0x53, 0x4B, 0x20,
          byteOf (48 + r.owner.val), 0x20, 0x20, 0x54, 0x41, 0x47, 0x20, t1, t2, t3, t4, t5, 0x20, 0x20, 0x4D, 0x4F, 0x44,
          0x45, 0x20, m1, m2, m3, m4, m5, m6, m7, m8, m9, m10, m11, m12, m13, m14, 0x20, 0x20, 0x50, 0x41, 0x47, 0x45, 0x20,
          p1, p2, p3, p4, p5] := by
      have name : r.mode.name ++ blanks (14 - r.mode.name.length) = _ := nameIs
      rw [headerLine, number, tagIs, pageIs, List.append_assoc _ r.mode.name, name]
      rfl
    rw [tagIs, pageIs, nameIs]
    simp only [cols]
    rw [is]
    exact ⟨rfl, rfl, rfl, rfl, rfl, rfl, rfl, rfl, rfl, rfl, rfl, rfl, rfl, rfl, rfl, rfl, rfl, rfl, rfl, rfl⟩
  case line =>
    intro marks x font e es small line cols mark text
    obtain ⟨a, b, c, d, f, p, q, r, number, space⟩ := lineHead_columns x small
    have marked : (if marks then marksText x.marks else blanks 5) =
        [mark x.marks.l 0x4C, mark x.marks.o 0x4F, mark x.marks.h 0x48, mark x.marks.n 0x4E, mark x.marks.m 0x4D] := by
      cases marks <;> rfl
    have head : lineHead marks x = [a, b, c, d, f, 0x20, mark x.marks.l 0x4C, mark x.marks.o 0x4F, mark x.marks.h 0x48,
        mark x.marks.n 0x4E, mark x.marks.m 0x4D, 0x20, p, q, r] := by
      rw [lineHead, marked, number, space]
      rfl
    have is : line = lineHead marks x ++ if trimBlanks (fitText text) = [] then [] else [0x20] ++ trimBlanks (fitText text) :=
      proofLine_eq marks x
    have after : line.drop 16 = trimBlanks (fitText text) := by
      rw [is, head]
      split
      · next none_ => rw [none_]; rfl
      · rfl
    have width : line.length ≤ 132 := by
      have short := trimBlanks_length (fitText text)
      have fits := fitText_length text
      rw [is, head]
      split
      · simp
      · simp
        omega
    have sixteenth : cols 16 16 = if line.drop 16 = [] then [] else [0x20] := by
      rw [after]
      simp only [cols]
      rw [is, head]
      split <;> rfl
    have ink : line.getLast? ≠ some 0x20 := trimBlanks_last _
    obtain ⟨tail, split_⟩ : ∃ tail, line = [a, b, c, d, f, 0x20, mark x.marks.l 0x4C, mark x.marks.o 0x4F,
        mark x.marks.h 0x48, mark x.marks.n 0x4E, mark x.marks.m 0x4D, 0x20, p, q, r] ++ tail := ⟨_, head ▸ is⟩
    have spaced : (match x.firstSpace with
        | some w => decimalRight 3 (min 999 w)
        | none => [0x2D, 0x2D, 0x2D]) = [p, q, r] := space
    refine ⟨?_, ?_, ?_, ?_, sixteenth, ?_, after, width, ink, rfl, rfl⟩
    all_goals simp only [cols]
    · rw [split_, number]; rfl
    · rw [split_]; rfl
    · rw [split_]; rfl
    · rw [split_]; rfl
    · refine Eq.trans ?_ spaced.symm
      rw [split_]; rfl

end Sys2Proof.Proofs

/-! PROOFS. The printer's events and the proof consumer (O38). -/

namespace Sys2Proof.Proofs

open Sys2Proof.Machine

/-! ## Modes are kept (R55) -/

/-- Each job keeps its mode, or its record was freed. -/
def SameModes (s t : State) : Prop := ∀ k : JobId, t.jobs[k].mode = s.jobs[k].mode ∨ t.jobs[k].mode = .set

theorem SameModes.refl (s : State) : SameModes s s := fun _ => .inl rfl

theorem SameModes.trans {s t u : State} (first : SameModes s t) (then_ : SameModes t u) : SameModes s u := by
  intro k
  rcases then_ k with same | set
  · rw [same]
    exact first k
  · exact .inr set

theorem SameModes.of_jobs {s t : State} (same : t.jobs = s.jobs) : SameModes s t := fun k => .inl (by rw [same])

theorem sameModes_put {s t : State} {j : JobId} {r : Job} (is : t.jobs = put s.jobs j r)
    (mode : r.mode = s.jobs[j].mode ∨ r.mode = .set) : SameModes s t := by
  intro k
  rw [is, put_entry]
  split
  · next here => rw [here]; exact mode
  · exact .inl rfl

theorem sameModes_foldl {α : Type} {f : State → α → State} (each : ∀ s a, SameModes s (f s a)) (as : List α) (s : State) :
    SameModes s (as.foldl f s) := by
  induction as generalizing s with
  | nil => exact .refl s
  | cons a rest ih => exact (each s a).trans (ih (f s a))

theorem checkJob_modes (j : JobId) (s : State) : SameModes s (checkJob j s) := by
  rcases checkJob_cases j s with is | is | ⟨_, _, is⟩ | is <;> rw [is]
  · exact .refl s
  · exact sameModes_put (freeJob_jobs j s) (.inr rfl)
  · exact sameModes_put (freeJob_jobs j _) (.inr rfl)
  · exact sameModes_put (s := s) (j := j) rfl (.inl rfl)

theorem refreshEngine_jobs (s : State) : (refreshEngine s).jobs = s.jobs := by
  obtain ⟨st, is⟩ := refreshEngine_frame s
  rw [is]

theorem sweep_modes (s : State) : SameModes s (sweep s) :=
  (SameModes.of_jobs (t := refreshEngine { s with buffer := staying s.buffer }) (refreshEngine_jobs _)).trans
    (sameModes_foldl (fun t j => checkJob_modes j t) _ _)

theorem trySelect_modes (s : State) : SameModes s (trySelect s) := by
  rcases trySelect_cases s with is | ⟨j, -, -, is⟩ <;> rw [is]
  · exact .refl s
  · exact sameModes_put (selectJob_jobs j s) (.inl rfl)

theorem refreshMount_jobs (s : State) : (refreshMount s).jobs = s.jobs := by
  unfold refreshMount
  dsimp only
  split <;> rfl

theorem flowIfFreed_jobs (before : Nat) (s : State) : (flowIfFreed before s).jobs = s.jobs := by
  unfold flowIfFreed flowAfterFreeing
  split
  · split <;> rfl
  · rfl

/-- What follows the proof channel's work in an event keeps the modes. -/
theorem settle_modes (before : Nat) (s : State) : SameModes (runProof (settleImaging s)) (settle before s) := by
  refine .trans (.of_jobs (refreshEngine_jobs _)) ((trySelect_modes (refreshEngine (runProof (settleImaging s)))).trans
    (.of_jobs ?_))
  exact (flowIfFreed_jobs _ _).trans (refreshMount_jobs _)

/-! ## The printer's events (R179, R180) -/

theorem giveBackPrinting_none {s : State} (none_ : proofRecord s = none) : giveBackPrinting s = s := by
  unfold giveBackPrinting
  rw [none_]

theorem giveBackPrinting_some {s : State} {r : Record} (inHand : proofRecord s = some r) :
    giveBackPrinting s = giveBackProof { s with proof := { s.proof with inFlight := none, rest := [], newPage := true } } := by
  unfold giveBackPrinting
  rw [inHand]
  rfl

/-- The line counted as printed (R70, R139). -/
def countPrinted (r : Record) (s : State) : State :=
  s.modJob r.job fun q =>
    { q with proofed := satSucc Config.max16 q.proofed, proofedHigh := max q.proofedHigh ((r.text.map (·.line)).getD 0) }

theorem finishProof_some {s : State} {r : Record} (inHand : proofRecord s = some r) :
    finishProof s = sweep (countPrinted r { s with buffer := s.buffer.map Record.proofDone }) := by
  unfold finishProof
  rw [inHand]
  rfl

theorem finishProof_none {s : State} (none_ : proofRecord s = none) : finishProof s = s := by
  unfold finishProof
  rw [none_]

theorem proofRecord_none (s : State) : proofRecord s = none ↔ ∀ r ∈ s.buffer, r.proof ≠ .busy := by
  simp [proofRecord]

theorem proofRecord_some {s : State} {r : Record} (inHand : proofRecord s = some r) : r ∈ s.buffer ∧ r.proof = .busy :=
  ⟨List.mem_of_find?_eq_some inHand, by simpa using List.find?_some (p := fun r : Record => decide (r.proof = .busy)) inHand⟩

theorem accepted_ignored {s : State} (none_ : s.proof.inFlight = none) : accepted s = s :=
  if_pos (by rw [none_]; rfl)

theorem accepted_taken {s : State} {b : Byte} (some_ : s.proof.inFlight = some b) :
    accepted s = settle s.store.freeCount (takeAccept s) := if_neg (by rw [some_]; exact Bool.false_ne_true)

theorem takeAccept_next {s : State} {b c : Byte} {r : List Byte} (some_ : s.proof.inFlight = some b)
    (more : s.proof.rest = c :: r) :
    takeAccept s = { s with proof := { s.proof with inFlight := some c, rest := r } } := by
  unfold takeAccept
  rw [some_, more]
  rfl

theorem takeAccept_last {s : State} {b : Byte} {r : Record} (some_ : s.proof.inFlight = some b) (last : s.proof.rest = [])
    (inHand : proofRecord s = some r) :
    takeAccept s = finishProof
      { s with proof := { s.proof with inFlight := none, lines := s.proof.lines + 1
                                       last := some (r.job, s.jobs[r.job].owner, s.jobs[r.job].tag) } } := by
  unfold takeAccept printed
  rw [some_, last, inHand]
  rfl

/-! ## The channel asks (R180) -/

theorem find_beginProof {bs : List Record} (idle : ∀ r ∈ bs, r.proof ≠ .busy) :
    (beginProof bs).find? (fun r => decide (r.proof = .busy)) =
      (bs.find? fun r => decide (r.proof = .due)).map fun r => { r with proof := .busy } := by
  induction bs with
  | nil => rfl
  | cons r rest ih =>
    unfold beginProof
    by_cases due : r.proof = .due
    · simp [due]
    · have free := idle r List.mem_cons_self
      simp [due, free, ih fun b mem => idle b (List.mem_cons_of_mem _ mem)]

theorem beginsPage_iff (s : State) (j : JobId) :
    beginsPage s j = true ↔
      s.proof.newPage = true ∨ s.proof.last ≠ some (j, s.jobs[j].owner, s.jobs[j].tag) ∨
        s.proof.linesPerPage ≤ s.proof.lines := by
  simp only [beginsPage, jobIdentity, Bool.or_eq_true, or_assoc]
  exact or_congr .rfl (or_congr decide_eq_true_iff decide_eq_true_iff)

theorem pageStart_eq (s : State) (j : JobId) :
    pageStart s j =
      [0x0C] ++ if s.proof.header then headerLine j s.jobs[j] (nextPage s j) ++ [0x0D, 0x0A, 0x0D, 0x0A] else [] := by
  unfold pageStart
  split
  · rw [List.append_assoc]
    rfl
  · rfl

theorem present_all (cs : List Byte) (s : State) :
    (present cs s).proof.inFlight.toList ++ (present cs s).proof.rest = cs := by
  cases cs <;> rfl

/-- A record begun: its line is presented, on a new page after a form feed and the header line (R180, R181). -/
theorem beginPrinting_eq (j : JobId) (x : TextLine) (s : State) :
    let t := beginPrinting j x s
    t.buffer = s.buffer ∧
    t.proof.inFlight.toList ++ t.proof.rest =
      (if beginsPage s j then pageStart s j else []) ++ (proofLine s.proof.marks x ++ newLine) ∧
    (t.proof.page, t.proof.lines, t.proof.newPage) =
      if beginsPage s j then (nextPage s j, 0, false) else (s.proof.page, s.proof.lines, s.proof.newPage) := by
  intro t
  simp only [t, beginPrinting]
  generalize proofLine s.proof.marks x ++ newLine = line
  generalize pageStart s j = start
  split
  · exact ⟨rfl, present_all _ _, rfl⟩
  · exact ⟨rfl, present_all _ _, rfl⟩

theorem askProof_begins {j : JobId} {x : TextLine} {img : ImgField} {s : State} (idle : ∀ r ∈ s.buffer, r.proof ≠ .busy)
    (oldest : (s.buffer.find? fun r => decide (r.proof = .due)) = some ⟨j, some x, img, .due⟩) :
    askProof s = beginPrinting j x { s with buffer := beginProof s.buffer } ∧
      proofRecord { s with buffer := beginProof s.buffer } = some ⟨j, some x, img, .busy⟩ := by
  have begun : proofRecord { s with buffer := beginProof s.buffer } = some ⟨j, some x, img, .busy⟩ :=
    (find_beginProof idle).trans (by rw [oldest]; rfl)
  refine ⟨?_, begun⟩
  unfold askProof
  rw [(proofRecord_none s).2 idle]
  dsimp only
  rw [begun]

/-! ## What is left after an event (R139, R140) -/

/-- Excusal leaves the oldest DUE record of other work (R140). -/
theorem excuse_leaves (s : State) (bs : List Record) :
    (∀ r, (excuse s bs).1.find? (fun r => decide (r.proof = .due)) = some r → s.jobs[r.job].mode ≠ .setAndProof) ∧
      ((excuse s bs).2 = [] → (excuse s bs).1 = bs) := by
  induction bs with
  | nil => exact ⟨fun r is => by simp [excuse] at is, fun _ => rfl⟩
  | cons b rest ih =>
    obtain ⟨oldest, none_⟩ := ih
    unfold excuse
    by_cases due : b.proof = .due
    · by_cases mode : s.jobs[b.job].mode = .setAndProof
      · rw [if_pos due, if_pos mode]
        refine ⟨fun r is => oldest r ?_, fun is => absurd is (List.cons_ne_nil _ _)⟩
        simpa using is
      · rw [if_pos due, if_neg mode]
        refine ⟨fun r is => ?_, fun _ => rfl⟩
        simp only [List.find?_cons, due, decide_true, Option.some.injEq] at is
        rw [← is]
        exact mode
    · rw [if_neg due]
      refine ⟨fun r is => oldest r ?_, fun is => ?_⟩
      · simpa [due] using is
      · exact congrArg (b :: ·) (none_ is)

theorem find_due_staying (bs : List Record) :
    (staying bs).find? (fun r => decide (r.proof = .due)) = bs.find? fun r => decide (r.proof = .due) := by
  rw [staying, List.find?_filter]
  refine congrArg (List.find? · bs) (funext fun r => ?_)
  by_cases due : r.proof = .due <;> simp [due, Record.proofLive]

/-- A job's line lost to the proof channel (R140). -/
def countLost (t : State) (j : JobId) : State :=
  t.modJob j fun q => { q with proofLost := satSucc Config.max16 q.proofLost }

/-- The records excused and their lines counted, before those with nothing left to do leave. -/
def excused (s : State) : State := (excuse s s.buffer).2.foldl countLost { s with buffer := (excuse s s.buffer).1 }

theorem excuseProofs_none {s : State} (none_ : (excuse s s.buffer).2 = []) : excuseProofs s = s :=
  if_pos (by rw [none_]; rfl)

theorem excuseProofs_some {s : State} (some_ : (excuse s s.buffer).2 ≠ []) : excuseProofs s = sweep (excused s) :=
  if_neg (by rwa [List.isEmpty_iff])

theorem work_excused (s : State) : work (excused s) = work { s with buffer := (excuse s s.buffer).1 } :=
  foldl_work (f := countLost) (fun _ _ => rfl) _ _

theorem countLost_modes (t : State) (j : JobId) : SameModes t (countLost t j) := sameModes_put (j := j) rfl (.inl rfl)

theorem excused_modes (s : State) : SameModes s (excused s) :=
  (SameModes.of_jobs (t := { s with buffer := (excuse s s.buffer).1 }) rfl).trans
    (sameModes_foldl countLost_modes _ _)

theorem excuseProofs_leaves (s : State) (r : Record)
    (oldest : (excuseProofs s).buffer.find? (fun r => decide (r.proof = .due)) = some r) :
    (excuseProofs s).jobs[r.job].mode ≠ .setAndProof := by
  obtain ⟨left, none_⟩ := excuse_leaves s s.buffer
  have other (t : State) (modes : SameModes s t) (not_ : s.jobs[r.job].mode ≠ .setAndProof) :
      t.jobs[r.job].mode ≠ .setAndProof := by
    rcases modes r.job with same | set
    · rwa [same]
    · rw [set]
      decide
  by_cases none__ : (excuse s s.buffer).2 = []
  · rw [excuseProofs_none none__] at oldest ⊢
    rw [← none_ none__] at oldest
    exact left r oldest
  · rw [excuseProofs_some none__] at oldest ⊢
    rw [buffer_of_work (work_sweep _)] at oldest
    rw [show (staying (excused s).buffer) = staying (excuse s s.buffer).1 from congrArg staying (buffer_of_work (work_excused s)),
      find_due_staying] at oldest
    exact other _ ((excused_modes s).trans (sweep_modes _)) (left r oldest)

theorem beginPrinting_channel (j : JobId) (x : TextLine) (s : State) :
    (beginPrinting j x s).proof.enable = s.proof.enable ∧ (beginPrinting j x s).proof.printer = s.proof.printer := by
  simp only [beginPrinting]
  generalize proofLine s.proof.marks x ++ newLine = line
  generalize pageStart s j = start
  split <;> exact ⟨rfl, rfl⟩

/-- A ready channel is left with a line in hand, or with none to print (R139, R180). -/
theorem askProof_leaves (s : State) :
    ((askProof s).proof.enable = s.proof.enable ∧ (askProof s).proof.printer = s.proof.printer) ∧
    ∀ r, (askProof s).buffer.find? (fun r => decide (r.proof = .due)) = some r → r.text.isSome = true →
      ∃ b ∈ (askProof s).buffer, b.proof = .busy := by
  cases inHand : proofRecord s with
  | some b =>
    have same : askProof s = s := by rw [askProof, inHand]
    rw [same]
    exact ⟨⟨rfl, rfl⟩, fun _ _ _ => ⟨b, proofRecord_some inHand⟩⟩
  | none =>
    have idle := (proofRecord_none s).1 inHand
    have asks := find_beginProof idle
    unfold askProof
    rw [inHand]
    dsimp only
    split
    · next j x _ _ begun =>
      obtain ⟨buffer, -⟩ := beginPrinting_eq j x { s with buffer := beginProof s.buffer }
      obtain ⟨mem, busy⟩ := proofRecord_some begun
      exact ⟨beginPrinting_channel _ _ _, fun _ _ _ => ⟨_, buffer ▸ mem, busy⟩⟩
    · next other =>
      refine ⟨⟨rfl, rfl⟩, fun r oldest text => ?_⟩
      rw [oldest] at asks
      obtain ⟨j, x, img, proof⟩ := r
      obtain ⟨x, rfl⟩ := Option.isSome_iff_exists.1 text
      exact absurd asks (other j x img .busy)

theorem excuseProofs_proof (s : State) : (excuseProofs s).proof = s.proof := by
  by_cases none_ : (excuse s s.buffer).2 = []
  · rw [excuseProofs_none none_]
  · have excused_ : (excused s).proof = s.proof :=
      proof_of_work (s := { s with buffer := (excuse s s.buffer).1 }) (work_excused s)
    rw [excuseProofs_some none_]
    exact (sweep_proof _).trans excused_

theorem isReady_iff (c : ProofChannel) : c.isReady = true ↔ c.enable = true ∧ c.printer = .ready := by
  simp [ProofChannel.isReady]

/-- What the proof channel's work leaves waiting (R139, R140). -/
theorem runProof_leaves (s : State) (r : Record)
    (oldest : (runProof s).buffer.find? (fun r => decide (r.proof = .due)) = some r) :
    ((runProof s).proof.enable = true → (runProof s).proof.printer = .ready → r.text.isSome = true →
      ∃ b ∈ (runProof s).buffer, b.proof = .busy) ∧
    ((runProof s).proof.enable = false ∨ (runProof s).proof.printer ≠ .ready →
      (runProof s).jobs[r.job].mode ≠ .setAndProof) := by
  unfold runProof at oldest ⊢
  split
  · next ready =>
    rw [if_pos ready] at oldest
    obtain ⟨⟨enable, printer⟩, left⟩ := askProof_leaves s
    obtain ⟨on, idle⟩ := (isReady_iff _).1 ready
    refine ⟨fun _ _ text => left r oldest text, fun not_ => ?_⟩
    rw [enable, printer, on, idle] at not_
    simp at not_
  · next notReady =>
    rw [if_neg notReady] at oldest
    rw [excuseProofs_proof]
    exact ⟨fun on idle => absurd ((isReady_iff _).2 ⟨on, idle⟩) notReady, fun _ => excuseProofs_leaves s r oldest⟩

/-- Settles O38: the events, what is given back or printed, what is begun, and what is left waiting. -/
theorem printerEventsTaken : Obligations.PrinterEventsTaken := by
  refine ⟨?events, ?ends, ?begins, ?left⟩
  case events =>
    intro s after
    refine ⟨exec_ready s, exec_paperOut s, exec_fault s, fun none_ => ?_, fun b c r some_ more => ?_,
      fun b j t some_ last inHand => ?_⟩
    · rw [exec_accept, accepted_ignored none_]
    · rw [exec_accept, accepted_taken some_, takeAccept_next some_ more]
    · obtain ⟨r, found, is⟩ := Option.map_eq_some_iff.1 inHand
      cases is
      rw [exec_accept, accepted_taken some_, takeAccept_last some_ last found]
  case ends =>
    intro s stays ends back done
    refine ⟨fun idle => ?_, fun r inHand => ?_⟩
    · have none_ := (proofRecord_none s).2 idle
      exact ⟨giveBackPrinting_none none_, finishProof_none none_⟩
    · have stayed : stays = fun r => r.imgLive || r.proofLive := by
        funext r
        simp only [stays, Record.imgLive, Record.proofLive, ← Bool.decide_or]
        exact decide_eq_decide.2 or_assoc.symm
      have left (f : Record → ProofField) (g : Record → Record)
          (is : ∀ r, g r = if r.proof = .busy then { r with proof := f r } else r) :
          staying (s.buffer.map g) = ends f := by
        show _ = List.filter stays _
        rw [stayed, funext is]
        rfl
      have backIs : back = sweep _ := giveBackPrinting_some inHand
      have doneIs : done = sweep _ := finishProof_some inHand
      rw [backIs, doneIs]
      refine ⟨sweep_proof _, (sweep_buffer _).trans (left _ _ fun b => ?_), sweep_proof _,
        (sweep_buffer _).trans (left _ _ fun b => rfl), fun notComposed notCancelled notFaulted => ?_⟩
      · simp [Record.proofAgain]
      · have counted : (countPrinted r { s with buffer := s.buffer.map Record.proofDone }).jobs[r.job] = _ := put_same _ _ _
        rw [sweep_jobs_active _ _ (by rw [counted]; exact ⟨notComposed, notCancelled, notFaulted⟩), counted]
        rfl
  case begins =>
    intro j x img s on ready idle oldest t other new page start
    have channel : s.proof.isReady = true := (isReady_iff _).2 ⟨on, ready⟩
    obtain ⟨asks, begun⟩ := askProof_begins idle oldest
    have is : t = beginPrinting j x { s with buffer := beginProof s.buffer } := (if_pos channel).trans asks
    obtain ⟨buffer, presented, paged⟩ := beginPrinting_eq j x { s with buffer := beginProof s.buffer }
    have fresh : beginsPage { s with buffer := beginProof s.buffer } j = true ↔ new := beginsPage_iff _ j
    rw [pageStart_eq] at presented
    rw [is, buffer]
    refine ⟨begun, presented.trans ?_, paged.trans ?_⟩
    · rw [if_congr fresh rfl rfl, List.append_assoc]
      rfl
    · rw [if_congr fresh rfl rfl]
      rfl
  case left =>
    intro before s r t oldest
    have same : work t = work (runProof (settleImaging s)) := work_settle before s
    have modes : t.jobs[r.job].mode = _ ∨ t.jobs[r.job].mode = .set := settle_modes before s r.job
    rw [buffer_of_work same] at oldest ⊢
    rw [proof_of_work same]
    obtain ⟨asked, excused_⟩ := runProof_leaves _ r oldest
    refine ⟨asked, fun notReady => ?_⟩
    rcases modes with kept | set
    · rw [kept]
      exact excused_ notReady
    · rw [set]
      decide

end Sys2Proof.Proofs

/-! PROOFS. What a line build comes to (06): the line appended (O40), the stops (O41), the end of the text and the checks that
follow it (O42). -/

namespace Sys2Proof.Proofs

open Sys2Proof.Machine

/-! ## The job of a build -/

theorem imagingDue_iff (r : Job) :
    r.imagingDue = true ↔ r.mode = .set ∨ r.mode = .setAndProof ∨ (r.mode = .proofThenSet ∧ r.phase = .set) := by
  unfold Job.imagingDue
  cases r.mode <;> simp

theorem modJob_modJob (j : JobId) (f g : Job → Job) (s : State) :
    (s.modJob j f).modJob j g = { s with jobs := put s.jobs j (g (f s.jobs[j])) } := by
  have first : (s.modJob j f).jobs[j] = f s.jobs[j] := put_same _ _ _
  show { s with jobs := put (put s.jobs j (f s.jobs[j])) j (g (s.modJob j f).jobs[j]) } = _
  rw [first, put_put]

/-- A build that stops its job after raising exceptions (R60, R103). -/
theorem stopComposing_flagged (j : JobId) (e : ExcSet) (f : Job → Job) (s : State) :
    stopComposing j f (flagRaised j e s) =
      { s with jobs := put s.jobs j (f { s.jobs[j] with sticky := s.jobs[j].sticky.union e })
               engine := { s.engine with st := .idle, owed := none, work := none } } := by
  show idleEngine ((s.modJob j _).modJob j f) = _
  rw [modJob_modJob]
  rfl

/-! ## The checks (R71, R75) -/

theorem inBuffer_false (j : JobId) (s : State) : inBuffer j s = false ↔ ∀ b ∈ s.buffer, b.job ≠ j := by
  simp [inBuffer]

theorem inTake_false (j : JobId) (s : State) : inTake j s = false ↔ ∀ g ∈ s.film.take, g.job ≠ j := by
  simp [inTake]

theorem checkJob_composed {j : JobId} {s : State} (is : s.jobs[j].state = .composed) :
    checkJob j s =
      if isComplete j s then
        if s.jobs[j].imagingDue then freeJob j (s.notice s.jobs[j].owner .jobDelivered j s.jobs[j].delivered)
        else
          if s.jobs[j].mode = .proofThenSet then
            (s.notice s.jobs[j].owner .proofDone j s.jobs[j].proofed).modJob j fun q => { q with state := .awaitRelease }
          else freeJob j (s.notice s.jobs[j].owner .proofDone j s.jobs[j].proofed)
      else s := by
  unfold checkJob
  dsimp only
  rw [is]

theorem checkJob_stopped {j : JobId} {s : State} (is : s.jobs[j].state = .cancelled ∨ s.jobs[j].state = .faulted) :
    checkJob j s = if inBuffer j s || inTake j s then s else freeJob j s := by
  unfold checkJob
  dsimp only
  rcases is with is | is <;> rw [is]

theorem isComplete_iff (j : JobId) (s : State) :
    isComplete j s = true ↔ (∀ b ∈ s.buffer, b.job ≠ j) ∧
      if s.jobs[j].imagingDue = true then s.jobs[j].delivered = s.jobs[j].composed
      else s.jobs[j].proofed = s.jobs[j].composed := by
  unfold isComplete
  dsimp only
  rw [Bool.and_eq_true, Bool.not_eq_true', inBuffer_false]
  split <;> simp

/-! ## The end of the text (R69, R99) -/

theorem cutDue_iff (r : Job) (request atEnd : Bool) :
    cutDue r request atEnd = true ↔
      r.imagingDue = true ∧ r.textSinceCut = true ∧ (request = true ∨ (atEnd = true ∧ r.cutAtEnd = true)) := by
  simp [cutDue, and_assoc]

/-- A job whose text has ended: COMPOSED, with its check (R69). -/
def composedAs (j : JobId) (q : Job) (s : State) : State :=
  checkJob j { s with jobs := put s.jobs j { q with state := .composed }
                      engine := { s.engine with st := .idle, owed := none, work := none } }

theorem finishText_eq (j : JobId) (s : State) : finishText j s = composedAs j s.jobs[j] s := rfl

/-- A CUT record appended for a job (R135). -/
theorem appendCut_eq (j : JobId) (s : State) :
    appendCut j s =
      { s with buffer := s.buffer ++ [⟨j, none, .due, .notDue⟩]
               jobs := put s.jobs j { s.jobs[j] with textSinceCut := false } } := rfl

section

variable {j : JobId} {request atEnd : Bool} {s : State}

theorem afterLine_plain (notDue : ¬ cutDue s.jobs[j] request atEnd = true) :
    afterLine j request atEnd s = if atEnd then finishText j s else s := by
  unfold afterLine
  rw [if_neg notDue]

theorem afterLine_cut (due : cutDue s.jobs[j] request atEnd = true) (room : s.buffer.length < 64) :
    afterLine j request atEnd s = if atEnd then finishText j (appendCut j s) else appendCut j s := by
  unfold afterLine
  rw [if_pos due, if_pos (show s.buffer.length < Config.bufferSize from room)]

theorem afterLine_owed (due : cutDue s.jobs[j] request atEnd = true) (full : 64 ≤ s.buffer.length) :
    afterLine j request atEnd s =
      { s with engine := { s.engine with owed := some (if atEnd then .atEnd else .afterLine) } } := by
  unfold afterLine
  rw [if_pos due, if_neg (show ¬ s.buffer.length < Config.bufferSize from Nat.not_lt.2 full)]

end

/-- Settles O42: the end of the text, the two checks, and a record freed. -/
theorem textEndsComposition : Obligations.TextEndsComposition := by
  refine ⟨?ended, ?checks, ?freed⟩
  case ended =>
    intro j ctx m e s r flagged composed due t
    have here : flagged.jobs[j] = r := put_same _ _ _
    have is : t = afterLine j m.cut true flagged := rfl
    have dueIff : cutDue flagged.jobs[j] m.cut true = true ↔ due := by
      rw [here, cutDue_iff]
      simp [due]
    refine ⟨fun notDue => ?_, fun isDue room => ?_, fun isDue full => ?_⟩
    · rw [is, afterLine_plain (dueIff.not.2 notDue), if_pos rfl, finishText_eq, here]
      rfl
    · rw [is, afterLine_cut (dueIff.2 isDue) room, if_pos rfl, finishText_eq, appendCut_eq, here]
      simp only [composedAs, composed, put_put, put_same]
      rfl
    · rw [is, afterLine_owed (dueIff.2 isDue) full]
      rfl
  case checks =>
    intro j s r told gone cut imaging
    have lines : isComplete j s = true ↔ gone ∧ if r.imagingDue = true then r.delivered = r.composed
      else r.proofed = r.composed := isComplete_iff j s
    have imagingIff : r.imagingDue = true ↔ imaging := imagingDue_iff r
    refine ⟨fun is due clear whole => ?_, fun is mode clear whole => ?_, fun is mode phase clear whole => ?_,
      fun is not_ => ?_, fun is => ⟨fun clear taken => ?_, fun not_ => ?_⟩, fun a b c => checkJob_active j s ⟨a, b, c⟩⟩
    · have due := imagingIff.2 due
      rw [checkJob_composed is, if_pos (lines.2 ⟨clear, by rwa [if_pos due]⟩), if_pos due]
      rfl
    · have notDue : ¬ r.imagingDue = true := by rw [imagingIff]; simp [imaging, mode]
      rw [checkJob_composed is, if_pos (lines.2 ⟨clear, by rwa [if_neg notDue]⟩), if_neg notDue,
        if_neg (by rw [show s.jobs[j].mode = _ from mode]; decide)]
      rfl
    · have notDue : ¬ r.imagingDue = true := by rw [imagingIff]; simp [imaging, mode, phase]
      rw [checkJob_composed is, if_pos (lines.2 ⟨clear, by rwa [if_neg notDue]⟩), if_neg notDue, if_pos mode]
      rfl
    · have incomplete : ¬ isComplete j s = true := by
        rw [lines]
        rintro ⟨clear, whole⟩
        rcases not_ with some_ | ⟨due, short⟩ | ⟨notDue, short⟩
        · exact some_ clear
        · rw [if_pos (imagingIff.2 due)] at whole
          exact short whole
        · rw [if_neg (imagingIff.not.2 notDue)] at whole
          exact short whole
      rw [checkJob_composed is, if_neg incomplete]
    · rw [checkJob_stopped is, (inBuffer_false j s).2 clear, (inTake_false j s).2 taken]
      rfl
    · have held : (inBuffer j s || inTake j s) = true := by
        by_contra none_
        rw [Bool.not_eq_true, Bool.or_eq_false_iff] at none_
        exact not_ ⟨(inBuffer_false j s).1 none_.1, (inTake_false j s).1 none_.2⟩
      rw [checkJob_stopped is, if_pos held]
  case freed =>
    intro j s t
    have resume : t.queue.resume = if s.queue.resume = some j then none else s.queue.resume := rfl
    refine ⟨freeJob_jobs j s, freeBlocks_freeList _ _, rfl, rfl, ?_, fun other => ?_⟩
    · rw [resume]
      split
      · exact nofun
      · assumption
    · rw [resume, if_neg other]

/-! ## The line appended (R116) -/

/-- The proof field of a line as it joins the buffer (R136). -/
theorem proofAtAppend_eq (s : State) (j : JobId) (line : Nat) :
    proofAtAppend s j line =
      match s.jobs[j].mode with
      | .set => .notDue
      | .proofOnly => .due
      | .proofThenSet => if s.jobs[j].phase = .set then .notDue else .due
      | .setAndProof =>
        if line ≤ s.jobs[j].proofedHigh ∨
            ∃ b ∈ s.buffer, b.job = j ∧ b.text.map (·.line) = some line ∧ (b.proof = .due ∨ b.proof = .busy)
        then .notDue else .due := by
  unfold proofAtAppend
  dsimp only
  cases s.jobs[j].mode with
  | setAndProof =>
    refine if_congr (or_congr .rfl ?_) rfl rfl
    simp [Record.proofLive, and_assoc]
  | _ => rfl

/-- The record of a line that joins the buffer (R136). -/
def recordOf (j : JobId) (x : TextLine) (s : State) : Record :=
  { job := j, text := some x, img := if s.jobs[j].imagingDue then .due else .notDue, proof := proofAtAppend s j x.line }

/-- A line joined to the buffer, with its context moved on, before the cut or the end that follows it (R116). -/
def joined (j : JobId) (x : TextLine) (next : Context) (line : Nat) (applied : ExcSet) (s : State) : State :=
  let t := (appendLine j x s).modJob j fun q =>
    { q with saved := some next, decisions := dropUnapplied line applied q.decisions }
  { t with engine := { t.engine with work := some next } }

theorem recordLine_eq {j : JobId} {c : Closed} {placed : List Placed} {first : Option Nat} {e : Raised} {ctx : Context}
    {s : State} (saved : s.jobs[j].saved = some ctx) :
    recordLine j c placed first e s =
      afterLine j c.next.cut c.atEnd
        (joined j (textLine s s.jobs[j] ctx c placed first e.kinds) (nextContext ctx c) ctx.line e.applied s) := by
  unfold recordLine
  dsimp only
  rw [saved]
  rfl

/-- The positions locked for a line's elements, in position order (R91). -/
def locked (x : TextLine) (due : Prop) [Decidable due] (s : State) : List Pos :=
  (List.finRange 6).filter fun p : Pos => decide ((due ∧ ∃ y ∈ x.elements, y.pos = some p) ∧ s.mount.pos[p].pins = 0)

theorem joined_eq (j : JobId) (x : TextLine) (next : Context) (line : Nat) (applied : ExcSet) (s : State) :
    ∃ pos, joined j x next line applied s =
      { s with
        buffer := s.buffer ++ [recordOf j x s]
        mount := { s.mount with pos := pos }
        port := s.port ++ (locked x (s.jobs[j].imagingDue = true) s).map .positionLock
        jobs := put s.jobs j
          { s.jobs[j] with saved := some next, composed := satSucc Config.max16 s.jobs[j].composed
                           textSinceCut := s.jobs[j].textSinceCut || s.jobs[j].imagingDue
                           decisions := dropUnapplied line applied s.jobs[j].decisions }
        engine := { s.engine with work := some next } } ∧
      ∀ p : Pos, pos[p] =
        { s.mount.pos[p] with
          pins := if s.jobs[j].imagingDue = true ∧ ∃ y ∈ x.elements, y.pos = some p then s.mount.pos[p].pins + 1
            else s.mount.pos[p].pins } := by
  let base : State := { s with buffer := s.buffer ++ [recordOf j x s] }
  have append (t : State) (is : (if s.jobs[j].imagingDue then pinRecord (recordOf j x s) base else base) = t) :
      joined j x next line applied s =
        { (t.modJob j fun q => { q with composed := satSucc Config.max16 q.composed
                                        textSinceCut := q.textSinceCut || s.jobs[j].imagingDue }).modJob j fun q =>
            { q with saved := some next, decisions := dropUnapplied line applied q.decisions } with
          engine := { t.engine with work := some next } } := by
    rw [← is]
    rfl
  by_cases due : s.jobs[j].imagingDue = true
  · obtain ⟨pos, is⟩ := pinRecord_frame (recordOf j x s) base
    have pins := pinRecord_pos (recordOf j x s) base
    have locks : (recordOf j x s).positions.filter (fun p => decide (base.mount.pos[p].pins = 0)) =
        locked x (s.jobs[j].imagingDue = true) s := by
      unfold locked Record.positions
      rw [List.filter_filter]
      refine List.filter_congr fun p _ => ?_
      rw [Bool.and_comm]
      simp only [due, true_and, Bool.decide_and]
      refine congrArg₂ and ?_ rfl
      rw [Bool.eq_iff_iff]
      simp [recordOf, Record.elements]
    rw [is] at pins
    rw [locks] at is
    refine ⟨pos, ?_, fun p => (pins p).trans ?_⟩
    · rw [append _ (if_pos due), is, modJob_modJob]
    · simp only [mem_positions, due, true_and]
      rfl
  · have none_ : locked x (s.jobs[j].imagingDue = true) s = [] := by
      simp [locked]
      exact fun p is => absurd is due
    refine ⟨s.mount.pos, ?_, fun p => ?_⟩
    · rw [append _ (if_neg due), none_, modJob_modJob, List.map_nil, List.append_nil]
    · rw [if_neg fun h => due h.1]

/-- Settles O40: the record and what its pins and counts come to, the cut and the end after it, and the lenses. -/
theorem lineAppended : Obligations.LineAppended := by
  refine ⟨?appended, by decide, ?sets⟩
  case sets =>
    intro x y k e
    refine ⟨rfl, ?_, ?_⟩
    · cases k <;> rfl
    · cases k <;> cases e <;> simp [ExcSet.has, ExcSet.add]
  case appended =>
    intro j ctx c placed first e s saved bare t whole due next
    let s1 : State := flagRaised j e.kinds s
    have here : s1.jobs[j] = { s.jobs[j] with sticky := s.jobs[j].sticky.union e.kinds } := put_same _ _ _
    have saved1 : s1.jobs[j].saved = some ctx := by rw [here]; exact saved
    let x : TextLine := textLine s1 s1.jobs[j] ctx c placed first e.kinds
    have tIs : t = joined j x next ctx.line e.applied s1 := by
      show recordLine j bare placed first e s1 = _
      rw [recordLine_eq saved1, afterLine_plain (by simp [cutDue, bare])]
      rfl
    have wholeIs : whole = afterLine j c.next.cut c.atEnd t := by
      rw [tIs]
      exact recordLine_eq saved1
    obtain ⟨pos, is, pins⟩ := joined_eq j x next ctx.line e.applied s1
    rw [← tIs, here] at is
    rw [here] at pins
    have flat : put s1.jobs j = put s.jobs j := funext fun r => put_put _ _ _ _
    rw [flat] at is
    have jobs : t.jobs[j] = _ := (congrArg (fun u : State => u.jobs[j]) is).trans (put_same _ _ _)
    have dueIff : cutDue t.jobs[j] c.next.cut c.atEnd = true ↔
        due ∧ (c.next.cut = true ∨ (c.atEnd = true ∧ s.jobs[j].cutAtEnd = true)) := by
      rw [cutDue_iff, jobs]
      constructor
      · rintro ⟨isDue, -, asked⟩
        exact ⟨isDue, asked⟩
      · rintro ⟨isDue, asked⟩
        have since : (s.jobs[j].textSinceCut || s.jobs[j].imagingDue) = true := by
          rw [show s.jobs[j].imagingDue = true from isDue, Bool.or_true]
        exact ⟨isDue, since, asked⟩
    have buffer : t.buffer = s.buffer ++ [recordOf j x s1] := by rw [is]; rfl
    have length : t.buffer.length = s.buffer.length + 1 := by rw [buffer, List.length_append, List.length_singleton]
    refine ⟨⟨recordOf j x s1, x, buffer, rfl, ?_, ?_, rfl, rfl, rfl, rfl, rfl, rfl, rfl, ?_, ?_, ?_⟩, ?_, ?_, ?_, ?_, ?_, ?_,
      ?_, ?_, ?_, ?_⟩
    · show (if s1.jobs[j].imagingDue then _ else _) = _
      rw [here]
      rfl
    · refine (proofAtAppend_eq s1 j ctx.line).trans ?_
      rw [here]
      rfl
    · show (placed.map _).map _ = _
      rw [List.map_map, here]
      rfl
    · intro p
      rw [is]
      exact pins p
    · rw [is]
      rfl
    · exact jobs
    · intro k other
      rw [is]
      exact put_other _ _ _ _ (Ne.symm other)
    · rw [is]
      rfl
    · rw [is]; rfl
    · rw [is]; rfl
    · rw [is]; rfl
    · rw [is]; rfl
    · rw [is]; rfl
    · rw [is]; rfl
    · intro composed cutDue cut
      refine ⟨fun notDue => ?_, fun isDue room => ?_, fun isDue full => ?_⟩
      · rw [wholeIs, afterLine_plain (dueIff.not.2 notDue)]
        rfl
      · rw [wholeIs, afterLine_cut (dueIff.2 isDue) (by omega)]
        rfl
      · rw [wholeIs, afterLine_owed (dueIff.2 isDue) (by omega)]

end Sys2Proof.Proofs

/-! PROOFS. The stops of a build and the mount requests (O41). -/

namespace Sys2Proof.Proofs

open Sys2Proof.Machine

/-! ## Release of the waiting jobs (R95) -/

theorem requeueWaiters_frame (js : List JobId) (s : State) :
    ∃ jobs, js.foldl (fun t j => requeueWaiter j t) s = { s with jobs := jobs } ∧
      ∀ k : JobId, jobs[k] =
        if k ∈ js then { s.jobs[k] with state := .queued, waitedFont := none } else s.jobs[k] := by
  induction js generalizing s with
  | nil => exact ⟨s.jobs, rfl, fun k => by simp⟩
  | cons j rest ih =>
    obtain ⟨jobs, is, each⟩ := ih (requeueWaiter j s)
    refine ⟨jobs, is, fun k => (each k).trans ?_⟩
    have first : (requeueWaiter j s).jobs[k] =
        if k = j then { s.jobs[j] with state := .queued, waitedFont := none } else s.jobs[k] := put_entry _ _ _ _
    rw [first]
    by_cases here : k = j
    · subst here
      simp
    · simp [here]

theorem noticeMountWaits_frame (f : Nat) (js : List JobId) (s : State) :
    ∃ links, js.foldl (fun t k => noticeMountWait f k t) s = { s with links := links } := by
  induction js generalizing s with
  | nil => exact ⟨_, rfl⟩
  | cons k rest ih =>
    obtain ⟨links, is⟩ := ih (noticeMountWait f k s)
    exact ⟨links, is⟩

/-- No job waits for a font, with a request or without one. -/
def NoneWaits (f : Nat) (s : State) : Prop :=
  (∀ r ∈ s.mount.requests, r.font ≠ f) ∧ ∀ k ∈ s.mount.waiting, s.jobs[k].waitedFont ≠ some f

/-- Jobs wait without a request only with eight requests pending (R93, R95). A waiting job always has a font. -/
def Promoted (s : State) : Prop :=
  s.mount.waiting = [] ∨ 8 ≤ s.mount.requests.length ∨
    ∃ k rest, s.mount.waiting = k :: rest ∧ s.jobs[k].waitedFont = none

/-- Jobs given requests: no request is made for a font that none waits for, and jobs are left without one only with eight
requests pending (R95). -/
theorem promoteWaiting_promotes (f n : Nat) (s : State) (none_ : NoneWaits f s) :
    NoneWaits f (promoteWaiting n s) ∧ (8 ≤ n + s.mount.requests.length → Promoted (promoteWaiting n s)) := by
  induction n generalizing s with
  | zero => exact ⟨none_, fun many => .inr (.inl (many.trans (Nat.zero_add _).le))⟩
  | succ n ih =>
    obtain ⟨requests, waiting⟩ := none_
    have unchanged (is : promoteWaiting (n + 1) s = s)
        (done : Promoted s) :
        NoneWaits f (promoteWaiting (n + 1) s) ∧
          (8 ≤ n + 1 + s.mount.requests.length → Promoted (promoteWaiting (n + 1) s)) := by
      rw [is]
      exact ⟨⟨requests, waiting⟩, fun _ => done⟩
    cases list : s.mount.waiting with
    | nil => exact unchanged (by rw [promoteWaiting, list]) (.inl list)
    | cons j rest =>
      cases font : s.jobs[j].waitedFont with
      | none =>
        refine unchanged ?_ (.inr (.inr ⟨j, rest, list, font⟩))
        rw [promoteWaiting, list]
        dsimp only
        rw [font]
      | some g =>
        by_cases room : s.mount.requests.length < Config.maxRequests
        · let mine := s.mount.waiting.filter fun k => decide (s.jobs[k].waitedFont = some g)
          let t : State := { s with mount := { s.mount with
            requests := s.mount.requests ++ [⟨g, none, mine⟩]
            waiting := s.mount.waiting.filter fun k => decide (s.jobs[k].waitedFont ≠ some g) } }
          obtain ⟨links, told⟩ := noticeMountWaits_frame g mine t
          have is : promoteWaiting (n + 1) s = promoteWaiting n { t with links := links } := by
            rw [← told, promoteWaiting, list]
            dsimp only
            rw [font]
            dsimp only
            rw [if_pos room]
            simp only [t, mine, list]
          have other : NoneWaits f { t with links := links } := by
            refine ⟨fun r mem => ?_, fun k mem => waiting k (List.mem_filter.1 mem).1⟩
            rcases List.mem_append.1 mem with old | new
            · exact requests r old
            · rw [List.mem_singleton.1 new]
              rintro rfl
              exact waiting j (list ▸ List.mem_cons_self) font
          obtain ⟨none_, promoted⟩ := ih { t with links := links } other
          rw [is]
          refine ⟨none_, fun many => promoted ?_⟩
          show 8 ≤ n + (s.mount.requests ++ [_]).length
          rw [List.length_append, List.length_singleton]
          omega
        · refine unchanged ?_ (.inr (.inl (Nat.not_lt.1 room)))
          rw [promoteWaiting, list]
          dsimp only
          rw [font]
          dsimp only
          rw [if_neg room]

/-- The jobs that wait for a font: those of its request, and those without one. -/
theorem mem_waitersFor {f : Nat} {s : State} (distinct_ : s.mount.requests.Pairwise fun a b => a.font ≠ b.font) (k : JobId) :
    k ∈ waitersFor f s ↔
      (∃ r ∈ s.mount.requests, r.font = f ∧ k ∈ r.waiters) ∨ (k ∈ s.mount.waiting ∧ s.jobs[k].waitedFont = some f) := by
  unfold waitersFor
  rw [List.mem_append, List.mem_filter, decide_eq_true_iff]
  refine or_congr ?_ .rfl
  generalize s.mount.requests = rs at distinct_
  induction rs with
  | nil => simp
  | cons r rest ih =>
    obtain ⟨others, distinct_⟩ := List.pairwise_cons.1 distinct_
    by_cases is : r.font = f
    · have alone : ¬ ∃ q ∈ rest, q.font = f ∧ k ∈ q.waiters := fun ⟨q, mem, font, _⟩ => others q mem (is.trans font.symm)
      simp [is, alone]
    · simp [is, ih distinct_]

/-! ## The suggestions (R94) -/

/-- A position is the older of two: the smaller last use, or the lower number where those are equal. -/
def Older (s : State) (q p : Pos) : Prop :=
  s.mount.pos[q].lastUse < s.mount.pos[p].lastUse ∨ (s.mount.pos[q].lastUse = s.mount.pos[p].lastUse ∧ q < p)

theorem foldl_olderPos (s : State) (ps : List Pos) (best p : Pos) (sorted : (best :: ps).Pairwise (· < ·)) (mem : p ∈ best :: ps)
    (oldest : ∀ q ∈ best :: ps, ¬ Older s q p) : ps.foldl (olderPos s) (some best) = some p := by
  induction ps generalizing best with
  | nil => rw [List.mem_singleton.1 mem]; rfl
  | cons x rest ih =>
    obtain ⟨below, sorted_⟩ := List.pairwise_cons.1 sorted
    obtain ⟨belowX, sortedRest⟩ := List.pairwise_cons.1 sorted_
    rw [List.foldl_cons]
    by_cases less : s.mount.pos[x].lastUse < s.mount.pos[best].lastUse
    · have step : olderPos s (some best) x = some x := if_pos less
      rw [step]
      refine ih x sorted_ ?_ fun q mem => oldest q (List.mem_cons_of_mem _ mem)
      rcases List.mem_cons.1 mem with is | there
      · exact absurd (.inl (is ▸ less)) (oldest x (by simp))
      · exact there
    · have step : olderPos s (some best) x = some best := if_neg less
      rw [step]
      refine ih best (List.pairwise_cons.2 ⟨fun q mem => below q (List.mem_cons_of_mem _ mem), sortedRest⟩) ?_
        fun q mem => oldest q ?_
      · rcases List.mem_cons.1 mem with is | there
        · exact is ▸ List.mem_cons_self
        · rcases List.mem_cons.1 there with rfl | there
          · refine absurd ?_ (oldest best List.mem_cons_self)
            rcases Nat.lt_or_eq_of_le (Nat.not_lt.1 less) with before | same
            · exact .inl before
            · exact .inr ⟨same, below p List.mem_cons_self⟩
          · exact List.mem_cons_of_mem _ there
      · rcases List.mem_cons.1 mem with rfl | there
        · exact List.mem_cons_self
        · exact List.mem_cons_of_mem _ (List.mem_cons_of_mem _ there)

theorem allPositions_eq : allPositions = List.finRange 6 := by decide

/-- The suggestion for a request, with some positions set aside (R94). -/
theorem suggest_eq (s : State) (taken : List Pos) :
    (∀ p, p ∉ taken → s.mount.pos[p].st = .empty →
      (∀ q : Pos, q < p → q ∉ taken → ¬ s.mount.pos[q].st = .empty) → suggest s taken = some p) ∧
    ((∀ p, p ∉ taken → ¬ s.mount.pos[p].st = .empty) →
      (∀ p, p ∉ taken → s.mount.pos[p].pins = 0 → (∀ q, q ∉ taken → s.mount.pos[q].pins = 0 → ¬ Older s q p) →
        suggest s taken = some p) ∧
      ((∀ p, p ∉ taken → ¬ s.mount.pos[p].pins = 0) → suggest s taken = none)) := by
  have find : (allPositions.filter fun p => !taken.contains p).find? (fun p => decide (s.mount.pos[p].st = .empty)) =
      (List.finRange 6).find? fun p => decide (p ∉ taken ∧ s.mount.pos[p].st = .empty) := by
    rw [List.find?_filter, allPositions_eq]
    refine congrArg (List.find? · _) (funext fun p => decide_eq_decide.2 (and_congr ?_ decide_eq_true_iff))
    simp
  constructor
  · intro p left empty first
    have found : (allPositions.filter fun p => !taken.contains p).find? (fun p => decide (s.mount.pos[p].st = .empty)) =
        some p := by
      rw [find, find_finRange]
      exact ⟨decide_eq_true ⟨left, empty⟩, fun q less => decide_eq_false fun ⟨left, empty⟩ => first q less left empty⟩
    unfold suggest
    dsimp only
    rw [found]
  · intro noneEmpty
    have found : (allPositions.filter fun p => !taken.contains p).find? (fun p => decide (s.mount.pos[p].st = .empty)) =
        none := by
      rw [find, find_finRange_none]
      exact fun q => decide_eq_false fun ⟨left, empty⟩ => noneEmpty q left empty
    let unpinned := (allPositions.filter fun p => !taken.contains p).filter fun p => decide (s.mount.pos[p].pins = 0)
    have is : suggest s taken = unpinned.foldl (olderPos s) none := by
      unfold suggest
      dsimp only
      rw [found]
    have mem_unpinned (p : Pos) : p ∈ unpinned ↔ p ∉ taken ∧ s.mount.pos[p].pins = 0 := by
      simp only [unpinned, List.mem_filter, Stable.mem_allPositions, true_and, decide_eq_true_iff]
      exact and_congr (by simp) .rfl
    have sorted : unpinned.Pairwise (· < ·) := List.Pairwise.filter _ (List.Pairwise.filter _ (by decide))
    rw [is]
    constructor
    · intro p left free oldest
      have mem := (mem_unpinned p).2 ⟨left, free⟩
      have oldest_ : ∀ q ∈ unpinned, ¬ Older s q p := fun q mem =>
        let ⟨left, free⟩ := (mem_unpinned q).1 mem
        oldest q left free
      cases list : unpinned with
      | nil => rw [list] at mem; cases mem
      | cons best rest =>
        rw [list] at mem sorted oldest_
        exact foldl_olderPos s rest best p sorted mem oldest_
    · intro pinned
      have none_ : unpinned = [] := List.eq_nil_iff_forall_not_mem.2 fun p mem =>
        let ⟨left, free⟩ := (mem_unpinned p).1 mem
        pinned p left free
      rw [none_]
      rfl

/-- Each request's suggestion sets aside those of the requests before it (R94). -/
theorem suggestAll_eq (s : State) (taken : List Pos) (rs earlier later : List MountRequest) (r : MountRequest)
    (is : suggestAll s taken rs = earlier ++ r :: later) :
    ∃ aside, r.suggested = suggest s aside ∧ ∀ p, p ∈ aside ↔ p ∈ taken ∨ ∃ q ∈ earlier, q.suggested = some p := by
  induction rs generalizing taken earlier with
  | nil => simp [suggestAll] at is
  | cons q rest ih =>
    unfold suggestAll at is
    dsimp only at is
    cases earlier with
    | nil =>
      rw [List.nil_append, List.cons.injEq] at is
      exact ⟨taken, by rw [← is.1], by simp⟩
    | cons e earlier =>
      rw [List.cons_append, List.cons.injEq] at is
      obtain ⟨first, rest_⟩ := is
      obtain ⟨aside, suggested, mem⟩ := ih _ _ rest_
      refine ⟨aside, suggested, fun p => (mem p).trans ?_⟩
      rw [← first]
      simp [or_assoc, or_comm]

/-- The panel shows the call that the first request asks for (R94). -/
theorem refreshMount_panel (s : State) :
    (refreshMount s).mount.requests = suggestAll s [] s.mount.requests ∧ (refreshMount s).mount.pos = s.mount.pos ∧
    callDiffers (wantedCall s (suggestAll s [] s.mount.requests)) (refreshMount s).mount.panel = false := by
  have same (c : PanelCall) : callDiffers c c = false := by cases c <;> simp [callDiffers]
  unfold refreshMount
  dsimp only
  split
  · exact ⟨rfl, rfl, same _⟩
  · next kept => exact ⟨rfl, rfl, Bool.not_eq_true _ ▸ kept⟩

theorem callDiffers_false {c shown : PanelCall} (same : callDiffers c shown = false) :
    c = .clear ∧ shown = .clear ∨ ∃ f p a b a' b', c = .call f p a b ∧ shown = .call f p a' b' := by
  cases c with
  | clear =>
    cases shown with
    | clear => exact .inl ⟨rfl, rfl⟩
    | call => cases same
  | call f p a b =>
    cases shown with
    | clear => cases same
    | call g q a' b' =>
      have is : f = g ∧ p = q := by simpa [callDiffers] using same
      obtain ⟨rfl, rfl⟩ := is
      exact .inr ⟨f, p, a, b, a', b', rfl, rfl⟩

theorem flowIfFreed_mount (before : Nat) (s : State) : (flowIfFreed before s).mount = s.mount := by
  unfold flowIfFreed flowAfterFreeing
  split
  · split <;> rfl
  · rfl

/-- Settles O41: the stops, the waiters, their release, and the suggestions. -/
theorem buildStopsJob : Obligations.BuildStopsJob := by
  refine ⟨?stops, ?enters, ?released, ?suggests⟩
  case stops =>
    intro j ctx e s stopped d
    have owner : (flagRaised j e.kinds s).jobs[j].owner = d := by
      have here : (flagRaised j e.kinds s).jobs[j] = { s.jobs[j] with sticky := s.jobs[j].sticky.union e.kinds } :=
        put_same _ _ _
      rw [here]
    refine ⟨fun k words => ?_, fun why detail => ?_, fun f => ?_⟩
    · show stopHeld j k ctx.line words (flagRaised j e.kinds s) = _
      unfold stopHeld
      dsimp only
      rw [stopComposing_flagged, owner]
      rfl
    · show stopFaulted j why detail (flagRaised j e.kinds s) = _
      unfold stopFaulted
      rw [stopComposing_flagged, owner]
      rfl
    · show stopForFont j f (flagRaised j e.kinds s) = _
      unfold stopForFont
      rw [stopComposing_flagged]
  case enters =>
    intro j f s told
    have pending : (s.mount.requests.any fun r => decide (r.font = f)) = true ↔ ∃ r ∈ s.mount.requests, r.font = f := by simp
    refine ⟨fun some_ => ?_, fun none_ room => ?_, fun none_ full => ?_⟩
    · exact if_pos (pending.2 some_)
    · have new : ¬ (s.mount.requests.any fun r => decide (r.font = f)) = true := by
        rw [pending]
        exact fun ⟨r, mem, is⟩ => none_ r mem is
      exact (if_neg new).trans (if_pos room)
    · have new : ¬ (s.mount.requests.any fun r => decide (r.font = f)) = true := by
        rw [pending]
        exact fun ⟨r, mem, is⟩ => none_ r mem is
      exact (if_neg new).trans (if_neg (Nat.not_lt.2 full))
  case released =>
    intro f s distinct_ t waits
    have mem (k : JobId) : k ∈ waitersFor f s ↔ waits k := mem_waitersFor distinct_ k
    let begun : State := { s with mount := { s.mount with
      requests := s.mount.requests.filter fun r => r.font ≠ f
      waiting := s.mount.waiting.filter fun j => s.jobs[j].waitedFont ≠ some f } }
    obtain ⟨jobs, is, each⟩ := requeueWaiters_frame (waitersFor f s) begun
    have tIs : t = promoteWaiting 8 { begun with jobs := jobs } := congrArg (promoteWaiting 8) is
    have none_ : NoneWaits f { begun with jobs := jobs } := by
      refine ⟨fun r there => by simpa using (List.mem_filter.1 there).2, fun k there => ?_⟩
      have other : s.jobs[k].waitedFont ≠ some f := by simpa using (List.mem_filter.1 there).2
      show jobs[k].waitedFont ≠ some f
      rw [each k]
      split
      · exact nofun
      · exact other
    obtain ⟨left, promoted⟩ := promoteWaiting_promotes f 8 _ none_
    obtain ⟨requests, waiting, links, frame⟩ := promoteWaiting_frame 8 { begun with jobs := jobs }
    rw [← tIs] at left promoted frame
    refine ⟨fun k there => ?_, fun k not_ => ?_, left.1, promoted (Nat.le_add_right _ _), ?_, ?_⟩
    · rw [frame]
      exact (each k).trans (if_pos ((mem k).2 there))
    · rw [frame]
      exact (each k).trans (if_neg ((mem k).not.2 not_))
    · rw [frame]
    · rw [frame]
  case suggests =>
    intro before s t
    let u : State := trySelect (refreshEngine (runProof (settleImaging s)))
    have mount : t.mount = (refreshMount u).mount := flowIfFreed_mount _ _
    obtain ⟨requests, pos, panel⟩ := refreshMount_panel u
    rw [← mount] at requests pos panel
    refine ⟨?_, fun earlier r later is => ?_⟩
    · rw [← requests] at panel
      cases list : t.mount.requests with
      | nil =>
        rw [list] at panel
        rcases callDiffers_false panel with ⟨-, shown⟩ | ⟨f, p, a, b, a', b', asked, -⟩
        · exact shown
        · cases asked
      | cons r rest =>
        rw [list] at panel
        rcases callDiffers_false panel with ⟨asked, -⟩ | ⟨f, p, a, b, a', b', asked, shown⟩
        · cases asked
        · cases asked
          exact ⟨a', b', shown⟩
    · intro left empty unpinned older
      obtain ⟨aside, suggested, mem⟩ := suggestAll_eq u [] _ _ _ _ (requests.symm.trans is)
      have leftIff (p : Pos) : left p ↔ p ∉ aside := by
        rw [mem p]
        simp [left]
      obtain ⟨firstEmpty, full⟩ := suggest_eq u aside
      rw [← suggested] at firstEmpty full
      simp only [← leftIff, ← pos] at firstEmpty full
      refine ⟨firstEmpty, fun noneEmpty => ⟨fun p free pins oldest => (full noneEmpty).1 p free pins fun q free pins => ?_,
        (full noneEmpty).2⟩⟩
      show ¬ (u.mount.pos[q].lastUse < u.mount.pos[p].lastUse ∨ _)
      rw [← pos]
      exact oldest q free pins

end Sys2Proof.Proofs

/-! PROOFS. The elements of a line and the line exposed (O50). -/

namespace Sys2Proof.Proofs

open Sys2Proof.Machine

section

variable {s : State} {r : Record} {e : Element} {p : Pos} (inHand : imgRecord s = some r)
  (elem : r.elements[s.imaging.elem]? = some e) (at_ : e.pos = some p)
include inHand elem at_

theorem runElement_element :
    runElement s =
      if s.imaging.curPos ≠ some p then startMove (.turret p) s
      else if s.imaging.curLens ≠ some e.lens then startMove (.lens e.lens) s
      else flashElement e s := by
  unfold runElement
  rw [inHand]
  dsimp only [Option.bind_some]
  rw [elem]
  dsimp only
  rw [at_]

end

theorem runElement_done {s : State} {r : Record} (inHand : imgRecord s = some r)
    (past : r.elements.length ≤ s.imaging.elem) : runElement s = lineExposed s := by
  unfold runElement
  rw [inHand]
  dsimp only [Option.bind_some]
  rw [List.getElem?_eq_none past]

theorem flashElement_eq {e : Element} {p : Pos} (at_ : e.pos = some p) (s : State) :
    flashElement e s =
      { s with
        imaging := { s.imaging with move := some .flash, retry := 0, limit := s.settings.retryLimit
                                    confirmTimer := some s.settings.confirmTimeout }
        port := s.port ++ [.escape (drive e.x s.imaging.latched.lens[e.lens]),
          .flash (energy s.imaging.latched.expo[e.lens] (fontDensity s e.font) s.settings.aref s.imaging.a64 s.imaging.soak)
            s.imaging.latched.base[p]]
        mount := { s.mount with
          flashSeq := satSucc Config.max32 s.mount.flashSeq
          pos := put s.mount.pos p { s.mount.pos[p] with lastUse := satSucc Config.max32 s.mount.flashSeq } } } := by
  unfold flashElement
  dsimp only
  rw [at_]
  dsimp only [deflection]
  show startMove .flash _ = _
  simp only [startMove, ImgMove.command, State.send, State.modImg, countFlash, State.modPos, List.append_assoc]
  rfl

theorem lineExposed_eq {s : State} {j : JobId} {x : TextLine} {img : ImgField} {proof : ProofField}
    (inHand : imgRecord s = some ⟨j, some x, img, proof⟩) :
    lineExposed s =
      { (finishImaging { s with film := { s.film with take := addLine s.film.take j x } }) with
        port := (finishImaging { s with film := { s.film with take := addLine s.film.take j x } }).port ++ [.escape 0]
        imaging :=
          { (finishImaging { s with film := { s.film with take := addLine s.film.take j x } }).imaging with st := .idle } } := by
  unfold lineExposed
  rw [inHand]
  rfl

theorem energy_eq (base density aref a64 soak : Nat) :
    energy base density aref a64 soak =
      max 1 (min 255
        (if 0 < soak then (2 * (base * density) + 128) / 256
        else if a64 = 0 then 255
        else (2 * (base * density * aref) + 2 * a64) / (4 * a64))) := by
  have twice : 2 * (2 * a64) = 4 * a64 := by omega
  unfold energy roundHalfUp clampNat
  rw [twice]

/-- The records that the sequencer's finish of a line leaves: those with imaging due, or a proof to come (R141). -/
theorem staying_finished (bs : List Record) :
    staying (bs.map Record.imgDone) =
      (bs.map fun b => if b.img = .busy then { b with img := .done } else b).filter
        fun b => decide (b.img = .due ∨ b.proof = .due ∨ b.proof = .busy) := by
  refine List.filter_congr fun b mem => ?_
  obtain ⟨a, -, rfl⟩ := List.mem_map.1 mem
  have notBusy : (Record.imgDone a).img ≠ .busy := by
    unfold Record.imgDone
    split
    · exact nofun
    · assumption
  simp [Record.imgLive, Record.proofLive, notBusy]

/-- A record's positions of a kind, in position order. -/
theorem positions_filter (r : Record) (P Q : Pos → Prop) [DecidablePred P] [∀ p, Decidable (Q p ∧ P p)]
    (is : ∀ p, p ∈ r.positions ↔ Q p) :
    r.positions.filter (fun p => decide (P p)) = (List.finRange 6).filter fun p => decide (Q p ∧ P p) := by
  unfold Record.positions
  rw [List.filter_filter, allPositions_eq]
  refine List.filter_congr fun p _ => ?_
  have mem : (r.elements.any fun e => decide (e.pos = some p)) = true ↔ Q p := by
    rw [← is p, mem_positions]
    simp
  rw [← Bool.decide_coe (r.elements.any fun e => decide (e.pos = some p)), ← Bool.decide_and]
  exact decide_eq_decide.2 (and_comm.trans (and_congr mem .rfl))

/-- Settles O50: the next command for an element, the line exposed, and the density and record they take. -/
theorem elementSetInOrder : Obligations.ElementSetInOrder := by
  refine ⟨?element, ?exposed, ?taken⟩
  case element =>
    intro r e p s inHand elem at_ sent i step count base raw
    have next := runElement_element inHand elem at_
    refine ⟨fun elsewhere => ?_, fun here other => ?_, fun here lens => ?_⟩
    · rw [next, if_pos elsewhere, startMove_sends rfl]
    · rw [next, if_neg (not_not.2 here), if_pos other, startMove_sends rfl]
    · rw [next, if_neg (not_not.2 here), if_neg (not_not.2 lens), flashElement_eq at_, energy_eq]
      rfl
  case exposed =>
    intro j x proof s inHand past t q pinned
    let taken : State := { s with film := { s.film with take := addLine s.film.take j x } }
    let r : Record := ⟨j, some x, .busy, proof⟩
    have inHand_ : imgRecord taken = some r := inHand
    have is : t = _ := (runElement_done inHand past).trans (lineExposed_eq inHand)
    have outside := finishImaging_outside inHand_
    simp only [State.outside, Prod.mk.injEq] at outside
    obtain ⟨mount, buffer, imaging, film, -, port⟩ := outside
    obtain ⟨pos, port', frame⟩ := unpinRecord_frame r taken
    have pinnedIff (p : Pos) : p ∈ r.positions ↔ pinned p := mem_positions r p
    refine ⟨?_, fun g last job next => ?_, fun other => ?_, ?_, fun p => ?_, ?_, fun a b c => ?_⟩
    · rw [is]
      dsimp only
      rw [imaging, frame]
    · rw [is]
      dsimp only
      rw [film, frame]
      have joins : addLine s.film.take j x = s.film.take.dropLast ++ [{ g with last := x.line }] := by
        unfold addLine
        rw [last]
        dsimp only
        rw [if_pos ⟨job, next⟩]
      show { s.film with take := addLine s.film.take j x } = _
      rw [joins]
    · rw [is]
      dsimp only
      rw [film, frame]
      have begins : addLine s.film.take j x = s.film.take ++ [⟨j, x.line, x.line, x.start⟩] := by
        unfold addLine
        cases last : s.film.take.getLast? with
        | none => rw [List.getLast?_eq_none_iff.1 last]; rfl
        | some g => exact if_neg fun same => (other g last).elim (absurd same.1) (absurd same.2)
      show { s.film with take := addLine s.film.take j x } = _
      rw [begins]
    · rw [is]
      exact buffer.trans (staying_finished s.buffer)
    · rw [is]
      dsimp only
      rw [mount]
      refine (unpinRecord_pos r taken p).trans ?_
      simp only [pinnedIff]
      rfl
    · rw [is]
      show (finishImaging taken).port ++ [.escape 0] = _
      rw [port]
      refine congrArg (· ++ _) ((unpinRecord_port r taken).trans (congrArg (fun ps => s.port ++ List.map _ ps) ?_))
      exact positions_filter r _ pinned pinnedIff
    · rw [is]
      show (finishImaging taken).jobs[j] = _
      have counted : (countExposed r { unpinRecord r taken with buffer := taken.buffer.map Record.imgDone }).jobs[j] =
          { q with exposed := satSucc Config.max16 q.exposed } := by
        rw [frame]
        exact put_same _ _ _
      rw [finishImaging_some inHand_, sweep_jobs_active _ _ (by rw [counted]; exact ⟨a, b, c⟩), counted]
      rfl
  case taken =>
    intro s f r
    refine ⟨fun k lv st tb dn sb hy nm is => ?_, rfl, ?_⟩
    · unfold fontDensity
      rw [is]
    · cases r with
      | mk j text img proof => cases text <;> rfl

end Sys2Proof.Proofs

/-! PROOFS. Strips in, out and read (O27). -/

namespace Sys2Proof.Proofs

open Sys2Proof.Machine

theorem classifyStrip_imaging (p : Pos) (c : Nat) (s : State) : (classifyStrip p c s).imaging = s.imaging := by
  unfold classifyStrip
  split
  · rfl
  · split
    · rfl
    · next f _ _ =>
      let t : State := s.modPos p fun q => { q with st := .mounted f c, lastUse := s.mount.flashSeq }
      exact imaging_of_work (s := t) (work_releaseWaiters f t)

theorem classifyStrip_store (p : Pos) (c : Nat) (s : State) : (classifyStrip p c s).store = s.store := by
  unfold classifyStrip
  split
  · rfl
  · split
    · rfl
    · obtain ⟨_, _, _, _, is⟩ := releaseWaiters_frame _ _
      rw [is]
      rfl

theorem reclassify_imaging (s : State) : (reclassify s).imaging = s.imaging := by
  have each (t : State) (p : Pos) : (reclassifyAt t p).imaging = t.imaging := by
    unfold reclassifyAt
    split
    · exact classifyStrip_imaging _ _ _
    · exact classifyStrip_imaging _ _ _
    · rfl
  unfold reclassify
  induction allPositions generalizing s with
  | nil => rfl
  | cons p rest ih => exact (ih _).trans (each s p)

theorem stripRemoved_empty {p : Pos} {s : State} (empty : s.mount.pos[p].st = .empty) : stripRemoved p s = s := if_pos empty

theorem stripRemoved_taken {p : Pos} {s : State} (some_ : s.mount.pos[p].st ≠ .empty) :
    stripRemoved p s = settle s.store.freeCount (takeStripOut p s) := if_neg some_

theorem takeStripOut_eq {p : Pos} {s : State} (some_ : s.mount.pos[p].st ≠ .empty) :
    takeStripOut p s = if 0 < s.mount.pos[p].pins then lockFailure p s else emptyPosition p s := if_neg some_

theorem stripFitted_eq (p : Pos) (c : Byte) (s : State) :
    stripFitted p c s =
      settle (stripRemoved p s).store.freeCount (classifyStrip p c.toNat (stripRemoved p s)) := by
  unfold stripFitted takeStripIn
  dsimp only
  rw [classifyStrip_store]

/-- A sequencer that is not IDLE is not started by what follows an event (R146). -/
theorem settle_imaging_busy (before : Nat) {s : State} (busy : s.imaging.st ≠ .idle) :
    (settle before s).imaging = s.imaging := by
  have same := imagingWork_settle before s
  simp only [imagingWork, Prod.mk.injEq] at same
  obtain ⟨-, -, -, imaging, -⟩ := same
  rw [imaging, settleImaging, runImaging_busy _ busy]

theorem lockFailure_st (p : Pos) (s : State) : (lockFailure p s).imaging.st = .stopped := rfl

theorem stripRemoved_pinned {p : Pos} {s : State} (pinned : 0 < s.mount.pos[p].pins) (some_ : s.mount.pos[p].st ≠ .empty) :
    (stripRemoved p s).imaging.st = .stopped := by
  have stopped := lockFailure_st p s
  rw [stripRemoved_taken some_, takeStripOut_eq some_, if_pos pinned, settle_imaging_busy _ (by rw [stopped]; decide), stopped]

theorem takeReading_pinned {p : Pos} {s : State} (code : Option Byte) (pinned : 0 < s.mount.pos[p].pins)
    (some_ : s.mount.pos[p].st ≠ .empty) : (takeReading p code s).imaging.st = .stopped := by
  unfold takeReading takeStripIn
  split
  · rw [classifyStrip_imaging, stripRemoved_pinned pinned some_]
  · exact stripRemoved_pinned pinned some_

theorem scanOn_next {p q : Pos} (next : q.val = p.val + 1) (s : State) : scanOn p s = startMove (.turret q) s := by
  have inside : p.val + 1 < 6 := next ▸ q.isLt
  unfold scanOn
  rw [dif_pos inside]
  exact congrArg (fun q => startMove (.turret q) s) (Fin.ext next.symm)

theorem scanOn_last {p : Pos} (last : p.val = 5) (s : State) :
    scanOn p s = startMove .lensHome
      { s with engine := { s.engine with scanEnded := true }, imaging := { s.imaging with stage := .lensHome } } := by
  unfold scanOn
  rw [dif_neg (by omega)]
  rfl

theorem stripRead_ignored {p : Pos} {code : Option Byte} {s : State}
    (not_ : s.imaging.move ≠ some .readStrip ∨ s.imaging.curPos ≠ some p) : stripRead p code s = s :=
  if_neg fun ⟨reading, here⟩ => not_.elim (absurd reading) (absurd here)

/-- Settles O27: the two events by the position's state, and the reading of a scan. -/
theorem stripEventsTaken : Obligations.StripEventsTaken := by
  refine ⟨?events, ?reading, fun p c s => ⟨exec_stripOut p s, rfl⟩⟩
  case events =>
    intro p c s emptied lost removed out fitted
    have goesIn : exec (.stripIn p c) s = .next (fitted (stripRemoved p s)) := by
      rw [exec_stripIn, stripFitted_eq]
    refine ⟨fun empty => ?_, fun some_ => ?_⟩
    · rw [exec_stripOut, goesIn, stripRemoved_empty empty]
      exact ⟨rfl, rfl⟩
    · have is : takeStripOut p s = removed := by
        have same : emptyPosition p (spoil (abandonWork s)) = lost := rfl
        rw [takeStripOut_eq some_, lockFailure, enterStopped_eq, same]
        rfl
      rw [exec_stripOut, goesIn, stripRemoved_taken some_, is]
      exact ⟨rfl, rfl⟩
  case reading =>
    intro p code s read sent
    refine ⟨fun not_ => ?_, fun reading here => ?_⟩
    · rw [exec_stripCode, stripRead_ignored not_]
    · have isRead : takeReading p code (endMove s) = read := by
        unfold takeReading
        cases code <;> rfl
      have run (t : State) (is : (if read.imaging.st = .starting then scanOn p read else read) = t) :
          exec (.stripCode p code) s = .next (settle read.store.freeCount t) := by
        have taken : stripRead p code s = _ := if_pos ⟨reading, here⟩
        rw [isRead] at taken
        rw [exec_stripCode, taken, ← is]
      refine ⟨fun pinned some_ starting => ?_, fun stopped => run _ (if_neg stopped), fun starting q next => ?_,
        fun starting last => ?_⟩
      · rw [← isRead, takeReading_pinned (s := endMove s) code pinned some_] at starting
        cases starting
      · refine run _ ((if_pos starting).trans ?_)
        rw [scanOn_next next, startMove_sends rfl]
      · refine run _ ((if_pos starting).trans ?_)
        rw [scanOn_last last, startMove_sends rfl]

end Sys2Proof.Proofs

/-! PROOFS. A cancelled job's leavings (O17) and selection (O20). -/

namespace Sys2Proof.Proofs

open Sys2Proof.Machine

/-! ## Cancellation (R74, R142) -/

/-- The records that a job's cancellation leaves in the buffer (R142). -/
def cancelledBuffer (j : JobId) (bs : List Record) : List Record :=
  (bs.map fun r => if r.job = j then r.cancelled else r).filter fun r => decide (r.job ≠ j) || r.imgLive || r.proofLive

theorem cancelRecords_frame (j : JobId) (s : State) :
    ∃ pos port st, cancelRecords j s =
      { s with mount := { s.mount with pos := pos }, port := port, buffer := cancelledBuffer j s.buffer
               engine := { s.engine with st := st } } := by
  obtain ⟨pos, port, is⟩ := unpinRecords_frame
    ((s.buffer.filter fun r => decide (r.job = j)).filter fun r => decide (r.img = .due)) s
  unfold cancelRecords
  dsimp only
  rw [is]
  obtain ⟨st, is_⟩ := refreshEngine_frame
    { s with mount := { s.mount with pos := pos }, port := port, buffer := cancelledBuffer j s.buffer }
  exact ⟨pos, port, st, is_⟩

theorem leaveWaiters_frame (j : JobId) (s : State) :
    ∃ requests waiting links, leaveWaiters j s =
      { s with mount := { s.mount with requests := requests, waiting := waiting }, links := links
               jobs := put s.jobs j { s.jobs[j] with waitedFont := none } } := by
  let left : State := { s with mount := { s.mount with
    requests := (s.mount.requests.map fun r => { r with waiters := r.waiters.filter (· ≠ j) }).filter fun r => !r.waiters.isEmpty
    waiting := s.mount.waiting.filter (· ≠ j) } }
  obtain ⟨requests, waiting, links, is⟩ := promoteWaiting_frame Config.maxRequests
    (left.modJob j fun r => { r with waitedFont := none })
  exact ⟨requests, waiting, links, is⟩

/-- A record of a cancelled job left in the buffer is at work, and due for nothing. -/
theorem cancelled_left {r : Record} (stays : (r.cancelled.imgLive || r.cancelled.proofLive) = true) :
    (r.cancelled.img = .busy ∨ r.cancelled.proof = .busy) ∧ r.cancelled.img ≠ .due ∧ r.cancelled.proof ≠ .due := by
  have noImg : r.cancelled.img ≠ .due := by
    show (if r.img = .busy then _ else if r.img = .due then _ else r.img) ≠ _
    split
    · exact nofun
    · split
      · exact nofun
      · assumption
  have noProof : r.cancelled.proof ≠ .due := by
    show (if r.proof = .busy then _ else if r.proof = .due then _ else r.proof) ≠ _
    split
    · exact nofun
    · split
      · exact nofun
      · assumption
  refine ⟨?_, noImg, noProof⟩
  simpa [Record.imgLive, Record.proofLive, noImg, noProof] using stays

theorem mem_cancelledBuffer {j : JobId} {bs : List Record} {r : Record} (mem : r ∈ cancelledBuffer j bs) (mine : r.job = j) :
    (r.img = .busy ∨ r.proof = .busy) ∧ r.img ≠ .due ∧ r.proof ≠ .due := by
  obtain ⟨mem, stays⟩ := List.mem_filter.1 mem
  obtain ⟨a, -, rfl⟩ := List.mem_map.1 mem
  by_cases of_ : a.job = j
  · rw [if_pos of_] at mine stays ⊢
    refine cancelled_left ?_
    simpa [show a.cancelled.job = j from of_] using stays
  · rw [if_neg of_] at mine
    exact absurd mine of_

/-- A job CANCELLED, its waiting ended and its engine idle, before its records are removed (R74). -/
def cancelledState (j : JobId) (s : State) : State :=
  let t := (if s.jobs[j].state = .waitMount then leaveWaiters j s else s).modJob j fun r =>
    { r with state := .cancelled, reason := .cancel, held := none, heldTimer := none }
  let u : State := { t with queue := { t.queue with
    resume := if t.queue.resume = some j then none else t.queue.resume
    rerun := t.queue.rerun.filter (· ≠ j) } }
  if s.jobs[j].state = .composing then idleEngine u else u

theorem cancelJob_eq (j : JobId) (s : State) : cancelJob j s = checkJob j (cancelRecords j (cancelledState j s)) := rfl

theorem cancelledState_frame (j : JobId) (s : State) (fonts : s.jobs[j].state ≠ .waitMount → s.jobs[j].waitedFont = none) :
    ∃ m links engine, cancelledState j s =
      { s with
        mount := m, links := links, engine := engine
        jobs := put s.jobs j
          { s.jobs[j] with state := .cancelled, reason := .cancel, held := none, heldTimer := none, waitedFont := none }
        queue := { s.queue with
          resume := if s.queue.resume = some j then none else s.queue.resume
          rerun := s.queue.rerun.filter (· ≠ j) } } := by
  obtain ⟨requests, waiting, links, is⟩ := leaveWaiters_frame j s
  have left : ∃ m links', (if s.jobs[j].state = .waitMount then leaveWaiters j s else s) =
      { s with mount := m, links := links', jobs := put s.jobs j { s.jobs[j] with waitedFont := none } } := by
    by_cases waits : s.jobs[j].state = .waitMount
    · exact ⟨_, _, (if_pos waits).trans is⟩
    · have same : ({ s.jobs[j] with waitedFont := none } : Job) = s.jobs[j] := by rw [← fonts waits]
      refine ⟨s.mount, s.links, (if_neg waits).trans ?_⟩
      rw [same, put_self]
  obtain ⟨m, links', left⟩ := left
  unfold cancelledState
  dsimp only
  rw [left]
  simp only [State.modJob, put_put, put_same]
  split
  · exact ⟨_, _, _, rfl⟩
  · exact ⟨_, _, _, rfl⟩

theorem freeJob_resume (j : JobId) (s : State) : (freeJob j s).queue.resume ≠ some j := by
  show (if s.queue.resume = some j then none else s.queue.resume) ≠ some j
  split
  · exact nofun
  · assumption

theorem freeJob_rerun (j : JobId) (s : State) : j ∉ (freeJob j s).queue.rerun := by
  show j ∉ s.queue.rerun.filter (· ≠ j)
  simp

/-- Settles O17: the record, the queue and the buffer that a cancellation leaves. -/
theorem cancelledJobLeaves : Obligations.CancelledJobLeaves := by
  intro j s used fonts t gone
  obtain ⟨m, links, engine, is⟩ := cancelledState_frame j s fonts
  obtain ⟨pos, port, st, frame⟩ := cancelRecords_frame j (cancelledState j s)
  let u : State := cancelRecords j (cancelledState j s)
  have whole : u = _ := frame
  rw [is] at whole
  have tIs : t = checkJob j u := cancelJob_eq j s
  have jobs : u.jobs = put s.jobs j gone := by rw [whole]
  have here : u.jobs[j] = gone := by rw [jobs]; exact put_same _ _ _
  have film : u.film = s.film := by rw [whole]
  have buffer : u.buffer = cancelledBuffer j s.buffer := by rw [whole]
  have resume : u.queue.resume = if s.queue.resume = some j then none else s.queue.resume := by rw [whole]
  have rerun : u.queue.rerun = s.queue.rerun.filter (· ≠ j) := by rw [whole]
  have resume_ : u.queue.resume ≠ some j := by
    rw [resume]
    split
    · exact nofun
    · assumption
  have rerun_ : j ∉ u.queue.rerun := by
    rw [rerun]
    simp
  have checked : checkJob j u = if inBuffer j u || inTake j u then u else freeJob j u :=
    checkJob_stopped (.inl (by rw [here]))
  have stays : (inBuffer j u || inTake j u) = true ↔
      (u.buffer.any (fun r => decide (r.job = j)) = true ∨ s.film.take.any (fun g => decide (g.job = j)) = true) := by
    rw [Bool.or_eq_true, ← film]
    rfl
  have buffer_ : t.buffer = u.buffer := by
    rw [tIs, buffer_of_work (work_checkJob j u)]
  rw [buffer_]
  refine ⟨?_, ?_, ?_, fun k other => ?_, fun r mem mine => mem_cancelledBuffer (buffer ▸ mem) mine⟩
  · rw [tIs, checked]
    by_cases held : (inBuffer j u || inTake j u) = true
    · rw [if_pos held, if_pos (stays.1 held), here]
    · rw [if_neg held, if_neg (stays.not.1 held)]
      exact put_same _ _ _
  · rw [tIs, checked]
    split
    · exact resume_
    · exact freeJob_resume j u
  · rw [tIs, checked]
    split
    · exact rerun_
    · exact freeJob_rerun j u
  · rw [tIs, checkJob_other j k u (Ne.symm other), jobs]
    exact put_other _ _ _ _ (Ne.symm other)

end Sys2Proof.Proofs

/-! PROOFS. Selection, and the engine and the queue after an event (O20). -/

namespace Sys2Proof.Proofs

open Sys2Proof.Machine

/-! ## Selection (R58, R59) -/

theorem head_firstQueued (s : State) (p : Job → Bool) (js : List JobId) :
    firstQueued s p js = (js.filter fun j => decide (s.jobs[j].state = .queued) && p s.jobs[j]).head? :=
  List.head?_filter.symm

/-- The QUEUED jobs in the order of the tiers (R58). -/
def tiers (s : State) : List JobId :=
  let queued (p : Job → Bool) (js : List JobId) : List JobId :=
    js.filter fun j => decide (s.jobs[j].state = .queued) && p s.jobs[j]
  let rush (r : Job) : Bool := decide (r.cls = .rush)
  queued rush s.queue.rerun ++ queued rush s.queue.entry ++ queued (fun _ => true) s.queue.resume.toList ++
    queued (fun r => !rush r) s.queue.rerun ++ queued (fun r => decide (r.cls = .priority)) s.queue.entry ++
    queued (fun r => decide (r.cls = .routine)) s.queue.entry

theorem nextJob_eq (s : State) : nextJob s = (tiers s).head? := by
  simp only [nextJob, head_firstQueued, tiers, List.head?_append, Option.or_assoc]

/-- Every QUEUED job of the lists stands in some tier. -/
theorem mem_tiers {s : State} {k : JobId} (listed : k ∈ s.queue.entry ∨ k ∈ s.queue.rerun ∨ s.queue.resume = some k)
    (queued : s.jobs[k].state = .queued) : k ∈ tiers s := by
  simp only [tiers, List.mem_append, List.mem_filter, Bool.and_eq_true, decide_eq_true_eq, Option.mem_toList]
  generalize s.jobs[k] = r at queued ⊢
  have cls : r.cls = .rush ∨ r.cls = .priority ∨ r.cls = .routine := by
    cases r.cls <;> simp
  rcases listed with entry | rerun | resume
  · rcases cls with is | is | is <;> simp [entry, queued, is]
  · rcases cls with is | is | is <;> simp [rerun, queued, is]
  · simp [resume, queued]

theorem trySelect_composing {s : State} {j : JobId} (composing : s.jobs[j].state = .composing) : trySelect s = s := by
  unfold trySelect
  cases is : composingJob s with
  | some k => rfl
  | none => exact absurd composing ((composingJob_none s).1 is j)

theorem trySelect_none {s : State} (idle : ∀ k : JobId, s.jobs[k].state ≠ .composing) (none_ : tiers s = []) :
    trySelect s = s := by
  unfold trySelect
  rw [(composingJob_none s).2 idle]
  dsimp only
  rw [nextJob_eq, none_]
  rfl

theorem trySelect_some {s : State} {j : JobId} {rest : List JobId} (idle : ∀ k : JobId, s.jobs[k].state ≠ .composing)
    (first : tiers s = j :: rest) : trySelect s = selectJob j s := by
  unfold trySelect
  rw [(composingJob_none s).2 idle]
  dsimp only
  rw [nextJob_eq, first]
  rfl

/-- After selection no listed job is QUEUED while none is COMPOSING (R58). -/
theorem trySelect_leaves (s : State) (idle : ∀ k : JobId, (trySelect s).jobs[k].state ≠ .composing) (k : JobId)
    (listed : k ∈ (trySelect s).queue.entry ∨ k ∈ (trySelect s).queue.rerun ∨ (trySelect s).queue.resume = some k) :
    (trySelect s).jobs[k].state ≠ .queued := by
  by_cases some_ : ∃ j : JobId, s.jobs[j].state = .composing
  · obtain ⟨j, composing⟩ := some_
    rw [trySelect_composing composing] at idle
    exact absurd composing (idle j)
  · have none_ : ∀ k : JobId, s.jobs[k].state ≠ .composing := fun j is => some_ ⟨j, is⟩
    cases order : tiers s with
    | nil =>
      rw [trySelect_none none_ order] at listed ⊢
      intro queued
      have mem := mem_tiers listed queued
      rw [order] at mem
      cases mem
    | cons j rest =>
      rw [trySelect_some none_ order] at idle
      exact absurd (congrArg Job.state (put_same s.jobs j _)) (idle j)

/-! ## The engine after an event (R97) -/

/-- The engine stands where its job, the scan and the buffer put it (R97). -/
def EngineSettled (s : State) : Prop :=
  s.engine.st = .idle ∨ (s.engine.st = .waitScan ∧ s.engine.scanEnded = false) ∨
  (s.engine.st = .running ∧ s.buffer.length < 64) ∨ (s.engine.st = .waitBuffer ∧ 64 ≤ s.buffer.length)

theorem bufferState_settled (s : State) :
    (bufferState s = .running ∧ s.buffer.length < 64) ∨ (bufferState s = .waitBuffer ∧ 64 ≤ s.buffer.length) := by
  by_cases room : s.buffer.length < 64
  · exact .inl ⟨if_pos room, room⟩
  · exact .inr ⟨if_neg room, Nat.not_lt.1 room⟩

theorem refreshEngine_settled (s : State) : EngineSettled (refreshEngine s) := by
  unfold refreshEngine
  split
  · next is => exact .inl is
  · next is =>
    split
    · exact .inr (.inr (bufferState_settled s))
    · next scanning => exact .inr (.inl ⟨is, Bool.not_eq_true _ ▸ scanning⟩)
  · exact .inr (.inr (bufferState_settled s))

theorem entryState_settled (j : JobId) (s : State) :
    (entryState j s = .waitScan ∧ s.engine.scanEnded = false) ∨
    (entryState j s = .running ∧ s.buffer.length < 64) ∨ (entryState j s = .waitBuffer ∧ 64 ≤ s.buffer.length) := by
  unfold entryState
  split
  · next scanning =>
    rw [Bool.and_eq_true, Bool.not_eq_true'] at scanning
    exact .inl ⟨rfl, scanning.2⟩
  · exact .inr (bufferState_settled s)

theorem trySelect_settled {s : State} (settled : EngineSettled s) : EngineSettled (trySelect s) := by
  rcases trySelect_cases s with is | ⟨j, -, -, is⟩ <;> rw [is]
  · exact settled
  · exact .inr (entryState_settled j s)

/-! ## The walk of the sequencer's work -/

/-- The strips of the positions and their pins (R85, R91). -/
def places (s : State) : Vector (PosState × Nat) 6 := s.mount.pos.map fun q => (q.st, q.pins)

theorem places_get (s : State) (p : Pos) : (places s)[p] = (s.mount.pos[p].st, s.mount.pos[p].pins) := by
  simp [places]

theorem places_countFlash (p : Pos) (s : State) : places (countFlash p s) = places s := by
  refine Vector.ext fun i hi => ?_
  have entry := put_entry s.mount.pos p ⟨i, hi⟩ { s.mount.pos[p] with lastUse := satSucc Config.max32 s.mount.flashSeq }
  have is : (places (countFlash p s))[(⟨i, hi⟩ : Pos)] = (places s)[(⟨i, hi⟩ : Pos)] := by
    rw [places_get, places_get]
    show ((put s.mount.pos p _)[(⟨i, hi⟩ : Pos)].st, (put s.mount.pos p _)[(⟨i, hi⟩ : Pos)].pins) = _
    rw [entry]
    split
    · next here =>
      rw [← here]
    · rfl
  exact is

/-- What the sequencer's part of a state is not. -/
def besideImaging (s : State) : Vector Job 32 × JobQueue × Engine × List Record × Vector (PosState × Nat) 6 :=
  (s.jobs, s.queue, s.engine, s.buffer, places s)

/-- A predicate that the sequencer's work keeps: it does not read the sequencer, the film, the links, the port or when a
position was last used, and records finished and given back keep it. -/
structure Imaged (P : State → Prop) : Prop where
  frame : ∀ s t : State, besideImaging t = besideImaging s → P s → P t
  clamped : ∀ (j : JobId) (s : State), P s → P (s.modJob j fun r => { r with reverseClamped := true })
  finished : ∀ s : State, P s → P (finishImaging s)
  returned : ∀ s : State, P s → P (giveBackImaging s)

namespace Imaged

variable {P : State → Prop} (hP : Imaged P) {s : State}
include hP

theorem lowTest (h : P s) : P (lowTest s) := by
  unfold Machine.lowTest
  dsimp only
  split
  · exact hP.frame s _ rfl h
  · exact h

theorem sendAdvance (n : Nat) (h : P s) : P (sendAdvance n s) := hP.lowTest (hP.frame s _ rfl h)

theorem sendReverse (n : Nat) (h : P s) : P (sendReverse n s) := hP.frame s _ rfl h

theorem cutFor (why : CutPurpose) (h : P s) : P (cutFor why s) := hP.sendAdvance _ (hP.frame s _ rfl h)

theorem startMove (m : ImgMove) (h : P s) : P (startMove m s) := by
  unfold Machine.startMove
  dsimp only
  split <;> exact hP.frame s _ rfl h

theorem flashElement (e : Element) (h : P s) : P (flashElement e s) := by
  unfold Machine.flashElement
  dsimp only
  refine hP.startMove _ ?_
  split
  · exact hP.frame s _ (congrArg (fun v => (s.jobs, s.queue, s.engine, s.buffer, v)) (places_countFlash _ _)) h
  · exact hP.frame s _ rfl h

theorem lineExposed (h : P s) : P (lineExposed s) := by
  have finished (t : State) (h : P t) :
      P (((Machine.finishImaging t).send (.escape 0)).modImg fun i => { i with st := .idle }) :=
    hP.frame (Machine.finishImaging t) _ rfl (hP.finished t h)
  unfold Machine.lineExposed
  dsimp only
  split
  · exact finished _ (hP.frame s _ rfl h)
  · exact finished _ h

theorem runElement (h : P s) : P (runElement s) := by
  unfold Machine.runElement
  split
  · exact hP.lineExposed h
  · split
    · split
      · exact hP.startMove _ h
      · split
        · exact hP.startMove _ h
        · exact hP.flashElement _ h
    · split
      · exact hP.startMove _ h
      · exact hP.flashElement _ h

theorem beginSetting (h : P s) : P (beginSetting s) := hP.runElement (hP.frame s _ rfl h)

theorem stopFilmOut (h : P s) : P (stopFilmOut s) := by
  have back : P (giveBackImaging (abandonWork s)) := hP.returned _ (hP.frame s _ rfl h)
  exact hP.frame (giveBackImaging (abandonWork s)) _ rfl back

theorem reverseLine (j : JobId) (l : Int) (h : P s) : P (reverseLine j l s) := by
  unfold Machine.reverseLine
  dsimp only
  split
  · exact hP.sendReverse _ h
  · split
    · exact hP.beginSetting (hP.clamped j s h)
    · exact hP.sendReverse _ (hP.clamped j s h)

theorem moveLine (j : JobId) (l : Int) (h : P s) : P (moveLine j l s) := by
  unfold Machine.moveLine
  dsimp only
  split
  · split
    · exact hP.stopFilmOut (hP.frame s _ rfl h)
    · exact hP.cutFor _ h
  · split
    · exact hP.sendAdvance _ h
    · split
      · exact hP.beginSetting h
      · exact hP.reverseLine j l h

theorem testLength (j : JobId) (l : Int) (h : P s) : P (testLength j l s) := by
  unfold Machine.testLength
  dsimp only
  split
  · exact hP.cutFor _ h
  · exact hP.moveLine j l h

theorem testSegments (j : JobId) (t : TextLine) (h : P s) : P (testSegments j t s) := by
  unfold Machine.testSegments
  split
  · exact hP.cutFor _ h
  · exact hP.testLength j _ h

theorem beginRecord (r : Record) (h : P s) : P (beginRecord r s) := by
  unfold Machine.beginRecord
  split
  · exact hP.testSegments _ _ (hP.frame s _ rfl h)
  · split
    · exact hP.finished s h
    · exact hP.cutFor _ h

theorem cutPending (h : P s) : P (cutPending s) := by
  unfold Machine.cutPending
  split
  · exact hP.frame s _ rfl h
  · exact hP.cutFor _ h

/-- Where records asked for keep it too, so does the work taken (R146). -/
theorem runImaging (asked : ∀ s : State, P s → P (askImaging s)) (n : Nat) (h : P s) : P (runImaging n s) := by
  induction n generalizing s with
  | zero => exact h
  | succ n ih =>
    unfold Machine.runImaging
    split
    · exact h
    · split
      · exact ih (hP.cutPending h)
      · split
        · exact h
        · exact ih (hP.beginRecord _ (asked s h))

end Imaged

/-! ## An IDLE engine (R97) -/

/-- The engine is IDLE only while no job is COMPOSING. -/
def RestsIdle (s : State) : Prop := s.engine.st = .idle → ∀ k : JobId, s.jobs[k].state ≠ .composing

/-- No job comes to be COMPOSING, and the engine leaves IDLE or enters it in neither. -/
def StaysIdle (s t : State) : Prop :=
  (t.engine.st = .idle → s.engine.st = .idle) ∧
  ∀ k : JobId, t.jobs[k].state = .composing → s.jobs[k].state = .composing

theorem StaysIdle.rests {s t : State} (stays : StaysIdle s t) (rests : RestsIdle s) : RestsIdle t :=
  fun idle k composing => rests (stays.1 idle) k (stays.2 k composing)

theorem StaysIdle.trans {s t u : State} (first : StaysIdle s t) (then_ : StaysIdle t u) : StaysIdle s u :=
  ⟨fun idle => first.1 (then_.1 idle), fun k composing => first.2 k (then_.2 k composing)⟩

theorem StaysIdle.of_same {s t : State} (engine : t.engine = s.engine) (jobs : t.jobs = s.jobs) : StaysIdle s t :=
  ⟨fun idle => engine ▸ idle, fun k composing => by rwa [jobs] at composing⟩

theorem staysIdle_put {s t : State} {j : JobId} {r : Job} (engine : t.engine = s.engine) (jobs : t.jobs = put s.jobs j r)
    (state : r.state = .composing → s.jobs[j].state = .composing) : StaysIdle s t := by
  refine ⟨fun idle => engine ▸ idle, fun k composing => ?_⟩
  rw [jobs, put_entry] at composing
  split at composing
  · next here => exact here ▸ state composing
  · exact composing

theorem staysIdle_foldl {α : Type} {f : State → α → State} (each : ∀ s a, StaysIdle s (f s a)) (as : List α) (s : State) :
    StaysIdle s (as.foldl f s) := by
  induction as generalizing s with
  | nil => exact ⟨id, fun _ => id⟩
  | cons a rest ih => exact (each s a).trans (ih (f s a))

theorem bufferState_busy (s : State) : bufferState s ≠ .idle := by
  unfold bufferState
  split <;> decide

theorem refreshEngine_idle (s : State) : StaysIdle s (refreshEngine s) := by
  refine ⟨fun idle => ?_, fun k => by rw [refreshEngine_jobs]; exact id⟩
  unfold refreshEngine at idle
  split at idle
  · assumption
  · split at idle
    · exact absurd idle (bufferState_busy s)
    · exact idle
  · exact absurd idle (bufferState_busy s)

theorem checkJob_idle (j : JobId) (s : State) : StaysIdle s (checkJob j s) := by
  have engine := checkJob_engine j s
  rcases checkJob_cases j s with is | is | ⟨_, _, is⟩ | is
  · rw [is]
    exact .of_same rfl rfl
  · exact staysIdle_put (r := Job.free) engine (by rw [is, freeJob_jobs]) nofun
  · exact staysIdle_put (r := Job.free) engine (by rw [is, freeJob_jobs]; rfl) nofun
  · exact staysIdle_put (r := { s.jobs[j] with state := .awaitRelease }) engine (by rw [is]; rfl) nofun

theorem sweep_idle (s : State) : StaysIdle s (sweep s) := by
  have begun : StaysIdle s { s with buffer := staying s.buffer } := .of_same rfl rfl
  exact begun.trans ((refreshEngine_idle _).trans (staysIdle_foldl (fun t j => checkJob_idle j t) _ _))

theorem countExposed_idle (r : Record) (s : State) : StaysIdle s (countExposed r s) := by
  unfold countExposed
  split
  · exact staysIdle_put rfl rfl id
  · exact .of_same rfl rfl

theorem restsIdle_imaged : Imaged RestsIdle where
  frame s t same := by
    simp only [besideImaging, Prod.mk.injEq] at same
    obtain ⟨jobs, -, engine, -⟩ := same
    exact (StaysIdle.of_same engine jobs).rests
  clamped j s := StaysIdle.rests (staysIdle_put rfl rfl id)
  finished s := by
    cases inHand : imgRecord s with
    | none => rw [finishImaging_none inHand]; exact id
    | some r =>
      obtain ⟨pos, port, is⟩ := unpinRecord_frame r s
      have begun : StaysIdle s { unpinRecord r s with buffer := s.buffer.map Record.imgDone } := by
        rw [is]
        exact .of_same rfl rfl
      rw [finishImaging_some inHand]
      exact (begun.trans ((countExposed_idle r _).trans (sweep_idle _))).rests
  returned s := StaysIdle.rests (.of_same rfl rfl)

theorem runProof_idle (s : State) : StaysIdle s (runProof s) := by
  have excused_ : StaysIdle s (excused s) := by
    have begun : StaysIdle s { s with buffer := (excuse s s.buffer).1 } := .of_same rfl rfl
    exact begun.trans (staysIdle_foldl (f := countLost) (fun t j => staysIdle_put (s := t) (j := j) rfl rfl id) _ _)
  unfold runProof
  split
  · unfold askProof
    split
    · exact .of_same rfl rfl
    · dsimp only
      split
      · unfold beginPrinting
        dsimp only
        split <;> exact .of_same rfl rfl
      · exact .of_same rfl rfl
  · by_cases none_ : (excuse s s.buffer).2 = []
    · rw [excuseProofs_none none_]
      exact .of_same rfl rfl
    · rw [excuseProofs_some none_]
      exact excused_.trans (sweep_idle _)

theorem trySelect_rests {s : State} (rests : RestsIdle s) : RestsIdle (trySelect s) := by
  rcases trySelect_cases s with is | ⟨j, -, -, is⟩ <;> rw [is]
  · exact rests
  · intro idle
    have entered : entryState j s = .idle := idle
    rcases entryState_settled j s with ⟨is, -⟩ | ⟨is, -⟩ | ⟨is, -⟩ <;> rw [is] at entered <;> cases entered

/-- What an event ends with, but for the mount requests and the links (R97, R58). -/
def selected (s : State) : State := trySelect (refreshEngine (runProof (settleImaging s)))

theorem settle_selected (before : Nat) (s : State) :
    (settle before s).jobs = (selected s).jobs ∧ (settle before s).queue = (selected s).queue ∧
    (settle before s).engine = (selected s).engine ∧ (settle before s).buffer = (selected s).buffer := by
  have mount : (refreshMount (selected s)).jobs = (selected s).jobs ∧ (refreshMount (selected s)).queue = (selected s).queue ∧
      (refreshMount (selected s)).engine = (selected s).engine ∧ (refreshMount (selected s)).buffer = (selected s).buffer := by
    unfold refreshMount
    dsimp only
    split <;> exact ⟨rfl, rfl, rfl, rfl⟩
  have flow (t : State) : (flowIfFreed before t).jobs = t.jobs ∧ (flowIfFreed before t).queue = t.queue ∧
      (flowIfFreed before t).engine = t.engine ∧ (flowIfFreed before t).buffer = t.buffer := by
    unfold flowIfFreed flowAfterFreeing
    split
    · split <;> exact ⟨rfl, rfl, rfl, rfl⟩
    · exact ⟨rfl, rfl, rfl, rfl⟩
  obtain ⟨jobs, queue, engine, buffer⟩ := flow (refreshMount (selected s))
  obtain ⟨jobs', queue', engine', buffer'⟩ := mount
  exact ⟨jobs.trans jobs', queue.trans queue', engine.trans engine', buffer.trans buffer'⟩

/-! ## Nothing to do -/

theorem settleImaging_none {s : State}
    (none_ : s.imaging.st ≠ .idle ∨ (s.film.pendingCut = false ∧ ∀ r ∈ s.buffer, r.img ≠ .due ∧ r.img ≠ .busy)) :
    settleImaging s = s := by
  rcases none_ with busy | ⟨clear, none_⟩
  · exact runImaging_busy _ busy
  · have idle : imgRecord (askImaging s) = none := by
      have same : askImaging s = s := by
        rw [askImaging, beginImg_of_none ((dueCount_zero _).2 fun r mem => (none_ r mem).1)]
      rw [same, imgRecord, List.find?_eq_none]
      exact fun r mem => by simpa using (none_ r mem).2
    show runImaging (s.buffer.length + 1 + 1) s = s
    unfold runImaging
    split
    · rfl
    · rw [clear, if_neg Bool.false_ne_true, idle]

theorem runProof_none {s : State} (none_ : ∀ r ∈ s.buffer, r.proof ≠ .due) : runProof s = s := by
  have kept (bs : List Record) (none_ : ∀ r ∈ bs, r.proof ≠ .due) : beginProof bs = bs ∧ (excuse s bs).2 = [] := by
    induction bs with
    | nil => exact ⟨rfl, rfl⟩
    | cons r rest ih =>
      obtain ⟨begun, excused_⟩ := ih fun b mem => none_ b (List.mem_cons_of_mem _ mem)
      have notDue := none_ r List.mem_cons_self
      constructor
      · rw [beginProof, if_neg notDue, begun]
      · rw [excuse, if_neg notDue]
        exact excused_
  obtain ⟨begun, excused_⟩ := kept s.buffer none_
  unfold runProof
  split
  · unfold askProof
    cases inHand : proofRecord s with
    | some r => rfl
    | none =>
      dsimp only
      rw [begun]
      rw [show proofRecord { s with buffer := s.buffer } = none from inHand]
  · exact excuseProofs_none excused_

theorem refreshMount_none {s : State} (requests : s.mount.requests = []) (panel : s.mount.panel = .clear) :
    refreshMount s = s := by
  unfold refreshMount
  dsimp only
  have none_ : suggestAll s [] s.mount.requests = [] := by rw [requests]; rfl
  have same : ({ s.mount with requests := [] } : MountTable) = s.mount := by rw [← requests]
  rw [none_, same, panel]
  rfl

/-- Settles O20: selection by the tiers, what an event ends with, and the event that finds nothing to do. -/
theorem selectionByTier : Obligations.SelectionByTier := by
  refine ⟨?selects, ?ends, imagingDue_iff, ?nothing⟩
  case selects =>
    intro s
    refine ⟨fun j composing => trySelect_composing composing.1, ?_⟩
    intro queued rush order
    refine ⟨fun none_ => ?_, fun j rest idle first => ⟨trySelect_some idle first, ?_, ?_, ?_, ?_⟩⟩
    · by_cases some_ : ∃ j : JobId, s.jobs[j].state = .composing
      · obtain ⟨j, composing⟩ := some_
        exact trySelect_composing composing
      · exact trySelect_none (fun j is => some_ ⟨j, is⟩) none_
    · exact congrArg Job.state (put_same s.jobs j _)
    · show (if s.queue.resume = some j then none else s.queue.resume) ≠ some j
      split
      · exact nofun
      · assumption
    · show j ∉ s.queue.rerun.filter (· ≠ j)
      simp
    · intro ctx entered
      have enters : entryState j s = entered := by
        simp only [entryState, entered, Bool.and_eq_true, Bool.not_eq_true']
        rfl
      rw [← enters]
      rfl
  case ends =>
    intro before s t
    obtain ⟨jobs, queue, engine, buffer⟩ := settle_selected before s
    have settled : EngineSettled (selected s) := trySelect_settled (refreshEngine_settled _)
    refine ⟨fun idle k listed => ?_, ?_, fun rests idle => ?_⟩
    · rw [jobs] at idle ⊢
      rw [queue] at listed
      exact trySelect_leaves _ idle k listed
    · rw [engine, buffer]
      exact settled
    · have kept : RestsIdle (selected s) :=
        trySelect_rests ((refreshEngine_idle _).rests ((runProof_idle _).rests (restsIdle_imaged.runImaging (fun s => StaysIdle.rests (.of_same rfl rfl)) _ rests)))
      rw [engine] at idle
      rw [jobs]
      exact kept idle
  case nothing =>
    intro before s imaging proof engine queue requests panel freed
    have idle : refreshEngine s = s := by rw [refreshEngine, engine]
    have none_ : tiers s = [] := List.eq_nil_iff_forall_not_mem.2 fun k mem => by
      simp only [tiers, List.mem_append, List.mem_filter, Bool.and_eq_true, decide_eq_true_eq, queue k, false_and,
        and_false, or_self] at mem
    have unselected : trySelect s = s := by
      by_cases some_ : ∃ j : JobId, s.jobs[j].state = .composing
      · obtain ⟨j, composing⟩ := some_
        exact trySelect_composing composing
      · exact trySelect_none (fun j is => some_ ⟨j, is⟩) none_
    rw [settle, settleImaging_none imaging, runProof_none proof, idle, unselected, refreshMount_none requests panel]
    exact if_neg (Nat.not_lt.2 freed)

end Sys2Proof.Proofs

/-! PROOFS. The sequencer, the take and the record in hand (R138 to R173): what each operation of the sequencer keeps of their
agreement (O57). -/

namespace Sys2Proof.Proofs

open Sys2Proof.Machine

/-! ## The record in hand (R138) -/

/-- The records in hand of the sequencer, without their proof fields. -/
def hand (bs : List Record) : List Record := (imagingView bs).filter fun r => decide (r.img = .busy)

theorem mem_hand (bs : List Record) (v : Record) : v ∈ hand bs ↔ ∃ r ∈ bs, r.img = .busy ∧ unproofed r = v := by
  simp only [hand, List.mem_filter, mem_imagingView, decide_eq_true_iff]
  constructor
  · rintro ⟨⟨r, mem, -, rfl⟩, busy⟩
    exact ⟨r, mem, busy, rfl⟩
  · rintro ⟨r, mem, busy, rfl⟩
    exact ⟨⟨r, mem, by simp [Record.imgLive, busy], rfl⟩, busy⟩

theorem hand_nil (bs : List Record) : hand bs = [] ↔ ∀ r ∈ bs, r.img ≠ .busy := by
  rw [List.eq_nil_iff_forall_not_mem]
  constructor
  · exact fun none_ r mem busy => none_ (unproofed r) ((mem_hand bs _).2 ⟨r, mem, busy, rfl⟩)
  · intro none_ v mem
    obtain ⟨r, mem, busy, -⟩ := (mem_hand bs v).1 mem
    exact none_ r mem busy

/-- What is said of the record in hand without its proof field. -/
theorem forall_hand {bs : List Record} {Q : Record → Prop} (blind : ∀ r, Q (unproofed r) ↔ Q r) :
    (∀ v ∈ hand bs, Q v) ↔ ∀ r ∈ bs, r.img = .busy → Q r := by
  constructor
  · exact fun all r mem busy => (blind r).1 (all _ ((mem_hand bs _).2 ⟨r, mem, busy, rfl⟩))
  · intro all v mem
    obtain ⟨r, there, busy, rfl⟩ := (mem_hand bs v).1 mem
    exact (blind r).2 (all r there busy)

theorem length_hand (bs : List Record) : (hand bs).length = bs.countP fun r => decide (r.img = .busy) := by
  unfold hand imagingView
  rw [← List.countP_eq_length_filter, List.countP_map, List.countP_filter]
  refine List.countP_congr fun r _ => ?_
  simp only [Function.comp_apply, unproofed, Record.imgLive, Bool.and_eq_true, decide_eq_true_eq]
  exact ⟨fun h => of_decide_eq_true h.1, fun h => ⟨decide_eq_true h, .inr h⟩⟩

theorem imgRecord_none {s : State} (none_ : hand s.buffer = []) : imgRecord s = none := by
  rw [imgRecord, List.find?_eq_none]
  exact fun r mem => by simpa using (hand_nil _).1 none_ r mem

theorem imgRecord_hand {s : State} {r : Record} (inHand : imgRecord s = some r) : unproofed r ∈ hand s.buffer :=
  (mem_hand _ _).2 ⟨r, List.mem_of_find?_eq_some inHand, by simpa using List.find?_some (p := fun r : Record => decide (r.img = .busy)) inHand, rfl⟩

theorem hand_none_of_imgRecord {s : State} (none_ : imgRecord s = none) : hand s.buffer = [] := by
  rw [imgRecord, List.find?_eq_none] at none_
  exact (hand_nil _).2 fun r mem => by simpa using none_ r mem

theorem hand_staying (bs : List Record) : hand (staying bs) = hand bs := by rw [hand, imagingView_staying, hand]

theorem hand_imgDone (bs : List Record) : hand (bs.map Record.imgDone) = [] := by
  rw [hand_nil]
  intro r mem
  obtain ⟨b, -, rfl⟩ := List.mem_map.1 mem
  unfold Record.imgDone
  split
  · exact nofun
  · assumption

theorem hand_imgAgain (bs : List Record) : hand (bs.map Record.imgAgain) = [] := by
  rw [hand_nil]
  intro r mem
  obtain ⟨b, -, rfl⟩ := List.mem_map.1 mem
  unfold Record.imgAgain
  split
  · exact nofun
  · assumption

/-! ## The agreement -/

/-- A take has room for a line, or ends with the line before it (R167, R171). -/
def RoomFor (take : List Segment) (r : Record) : Prop :=
  ∀ x, r.text = some x → take.length < 16 ∨ ∃ g, take.getLast? = some g ∧ g.job = r.job ∧ g.last + 1 = x.line

/-- The sequencer's part of MachineSound. -/
structure Sequenced (s : State) : Prop where
  one : (hand s.buffer).length ≤ 1
  rest : s.imaging.st = .idle ∨ s.imaging.st = .stopped ∨ s.imaging.st = .starting → hand s.buffer = []
  cutting : s.film.cut.isSome = true → s.imaging.st = .cutting
  pending : ∀ stage, s.film.cut = some (stage, .pending) → hand s.buffer = []
  text : ∀ stage why, s.film.cut = some (stage, why) → why = .segments ∨ why = .length →
    ∀ r ∈ hand s.buffer, r.text.isSome = true
  turret : ∀ p, s.imaging.move = some (.turret p) → s.imaging.st = .setting ∨ s.imaging.st = .starting
  lens : ∀ l, s.imaging.move = some (.lens l) → s.imaging.st = .setting
  flash : s.imaging.move = some .flash → s.imaging.st = .setting
  start : s.imaging.move = some .lensHome ∨ s.imaging.move = some .readStrip → s.imaging.st = .starting
  take : s.film.take.length ≤ 16
  line : s.imaging.st = .advancing ∨ s.imaging.st = .setting → ∀ r ∈ hand s.buffer, RoomFor s.film.take r

/-- What the agreement speaks of. -/
def sequence (s : State) : List Record × ImgState × Option ImgMove × Option (CutStage × CutPurpose) × List Segment :=
  (hand s.buffer, s.imaging.st, s.imaging.move, s.film.cut, s.film.take)

theorem Sequenced.of_same {s t : State} (same : sequence t = sequence s) (h : Sequenced s) : Sequenced t := by
  simp only [sequence, Prod.mk.injEq] at same
  obtain ⟨hand_, st, move, cut, take⟩ := same
  obtain ⟨a, b, c, d, e, f, g, i, j, k, l⟩ := h
  rw [← hand_] at a b d e l
  rw [← st] at b c f g i j l
  rw [← move] at f g i j
  rw [← cut] at c d e
  rw [← take] at k l
  exact ⟨a, b, c, d, e, f, g, i, j, k, l⟩

theorem sequenced_iff (s : State) :
    Sequenced s ↔ (s.buffer.countP fun r => decide (r.img = .busy)) ≤ 1 ∧ SequencerSound s ∧ TakeSound s := by
  have rest : hand s.buffer = [] ↔ ∀ r ∈ s.buffer, r.img ≠ .busy := hand_nil _
  have text : (∀ r ∈ hand s.buffer, r.text.isSome = true) ↔ ∀ r ∈ s.buffer, r.img = .busy → r.text.isSome = true :=
    forall_hand (Q := fun r => r.text.isSome = true) fun _ => .rfl
  have line : (∀ r ∈ hand s.buffer, RoomFor s.film.take r) ↔ ∀ r ∈ s.buffer, r.img = .busy → RoomFor s.film.take r :=
    forall_hand (Q := RoomFor s.film.take) fun _ => .rfl
  constructor
  · intro h
    exact ⟨length_hand _ ▸ h.one, ⟨fun st => rest.1 (h.rest st), h.cutting, fun stage cut => rest.1 (h.pending stage cut),
      fun stage why cut kind => text.1 (h.text stage why cut kind), h.turret, h.lens, h.flash, h.start⟩,
      h.take, fun st => line.1 (h.line st)⟩
  · rintro ⟨one, ⟨a, b, c, d, e, f, g, i⟩, take, l⟩
    exact ⟨(length_hand _).symm ▸ one, fun st => rest.2 (a st), b, fun stage cut => rest.2 (c stage cut),
      fun stage why cut kind => text.2 (d stage why cut kind), e, f, g, i, take, fun st => line.2 (l st)⟩

namespace Sequenced

variable {s t : State}

theorem unmoved (h : Sequenced s) (st : s.imaging.st ≠ .setting ∧ s.imaging.st ≠ .starting) : s.imaging.move = none := by
  obtain ⟨notSetting, notStarting⟩ := st
  cases is : s.imaging.move with
  | none => rfl
  | some m =>
    cases m with
    | turret p => exact (h.turret p is).elim (absurd · notSetting) (absurd · notStarting)
    | lens l => exact absurd (h.lens l is) notSetting
    | flash => exact absurd (h.flash is) notSetting
    | lensHome => exact absurd (h.start (.inl is)) notStarting
    | readStrip => exact absurd (h.start (.inr is)) notStarting

theorem uncut (h : Sequenced s) (st : s.imaging.st ≠ .cutting) : s.film.cut = none := by
  cases is : s.film.cut with
  | none => rfl
  | some c => exact absurd (h.cutting (by rw [is]; rfl)) st

/-- The sequencer with nothing in hand, in flight or being cut. -/
theorem idle (hand_ : hand s.buffer = []) (move : s.imaging.move = none) (cut : s.film.cut = none)
    (take : s.film.take.length ≤ 16) : Sequenced s where
  one := by rw [hand_]; exact Nat.zero_le 1
  rest _ := hand_
  cutting is := by rw [cut] at is; cases is
  pending _ _ := hand_
  text _ _ _ _ r mem := by rw [hand_] at mem; cases mem
  turret p is := by rw [move] at is; cases is
  lens l is := by rw [move] at is; cases is
  flash is := by rw [move] at is; cases is
  start is := by rw [move] at is; rcases is with is | is <;> cases is
  take := take
  line _ r mem := by rw [hand_] at mem; cases mem

/-- A command of the start-up in flight (R160). -/
theorem starting (st : s.imaging.st = .starting) (hand_ : hand s.buffer = []) (cut : s.film.cut = none)
    (move : (∃ p, s.imaging.move = some (.turret p)) ∨ s.imaging.move = some .lensHome ∨ s.imaging.move = some .readStrip)
    (take : s.film.take.length ≤ 16) : Sequenced s where
  one := by rw [hand_]; exact Nat.zero_le 1
  rest _ := hand_
  cutting is := by rw [cut] at is; cases is
  pending _ _ := hand_
  text _ _ _ _ r mem := by rw [hand_] at mem; cases mem
  turret _ _ := .inr st
  lens l is := by
    rcases move with ⟨_, other⟩ | other | other <;> rw [other] at is <;> cases is
  flash is := by
    rcases move with ⟨_, other⟩ | other | other <;> rw [other] at is <;> cases is
  start _ := st
  take := take
  line _ r mem := by rw [hand_] at mem; cases mem

/-- A line in hand that moves or is being set (R148, R149). -/
theorem atLine (st : s.imaging.st = .advancing ∧ s.imaging.move = none ∨ s.imaging.st = .setting ∧
      s.imaging.move ≠ some .lensHome ∧ s.imaging.move ≠ some .readStrip)
    (one : (hand s.buffer).length ≤ 1) (cut : s.film.cut = none) (take : s.film.take.length ≤ 16)
    (room : ∀ r ∈ hand s.buffer, RoomFor s.film.take r) : Sequenced s := by
  have busy : ¬ (s.imaging.st = .idle ∨ s.imaging.st = .stopped ∨ s.imaging.st = .starting) := by
    rcases st with ⟨is, -⟩ | ⟨is, -⟩ <;> rw [is] <;> decide
  have setting (moves : s.imaging.move ≠ none) : s.imaging.st = .setting := st.elim (fun h => absurd h.2 moves) (·.1)
  exact {
    one := one
    rest := fun is => absurd is busy
    cutting := fun is => by rw [cut] at is; cases is
    pending := fun _ is => by rw [cut] at is; cases is
    text := fun _ _ is => by rw [cut] at is; cases is
    turret := fun p is => .inl (setting (by rw [is]; exact nofun))
    lens := fun l is => setting (by rw [is]; exact nofun)
    flash := fun is => setting (by rw [is]; exact nofun)
    start := fun is => by
      rcases st with ⟨-, none_⟩ | ⟨-, notHome, notRead⟩
      · rw [none_] at is
        rcases is with is | is <;> cases is
      · exact is.elim (absurd · notHome) (absurd · notRead)
    take := take
    line := fun _ => room }

end Sequenced

/-! ## What the operations change of it -/

theorem sequence_lowTest (s : State) : sequence (lowTest s) = sequence s := by
  unfold lowTest
  dsimp only
  split <;> rfl

theorem sequence_sendAdvance (n : Nat) (s : State) : sequence (sendAdvance n s) = sequence s := sequence_lowTest _
theorem sequence_sendReverse (n : Nat) (s : State) : sequence (sendReverse n s) = sequence s := rfl
theorem sequence_noteFilmOut (s : State) : sequence (noteFilmOut s) = sequence s := rfl

theorem sequence_startMove (m : ImgMove) (s : State) :
    sequence (startMove m s) = (hand s.buffer, s.imaging.st, some m, s.film.cut, s.film.take) := by
  unfold startMove
  dsimp only
  split <;> rfl

theorem sequence_flashElement (e : Element) (s : State) :
    sequence (flashElement e s) = (hand s.buffer, s.imaging.st, some .flash, s.film.cut, s.film.take) := by
  unfold flashElement
  dsimp only
  rw [sequence_startMove]
  split <;> rfl

theorem finishImaging_sequence (s : State) :
    sequence (finishImaging s) = ([], s.imaging.st, s.imaging.move, s.film.cut, s.film.take) := by
  cases inHand : imgRecord s with
  | none =>
    rw [finishImaging_none inHand, sequence, hand_none_of_imgRecord inHand]
  | some r =>
    obtain ⟨pos, port, is⟩ := unpinRecord_frame r s
    have same := work_of_outside (finishImaging_outside inHand)
    rw [sequence, buffer_of_work same, imaging_of_work same, film_of_work same, is]
    simp only [hand_staying, hand_imgDone]

theorem sequence_cutFor (why : CutPurpose) (s : State) :
    sequence (cutFor why s) =
      (hand s.buffer, .cutting, s.imaging.move, some (.advancingToCut, why), s.film.take) := by
  unfold cutFor beginCut
  dsimp only
  rw [sequence_sendAdvance]
  rfl

theorem sequence_stopFilmOut (s : State) :
    sequence (stopFilmOut s) = ([], .stopped, none, s.film.cut, s.film.take) := by
  show (hand (s.buffer.map Record.imgAgain), _) = _
  rw [hand_imgAgain]
  rfl

/-- What a state has of the agreement, part by part. -/
theorem sequence_parts {s : State} {h : List Record} {st : ImgState} {move : Option ImgMove}
    {cut : Option (CutStage × CutPurpose)} {take : List Segment} (is : sequence s = (h, st, move, cut, take)) :
    hand s.buffer = h ∧ s.imaging.st = st ∧ s.imaging.move = move ∧ s.film.cut = cut ∧ s.film.take = take := by
  simp only [sequence, Prod.mk.injEq] at is
  exact is

namespace Sequenced

variable {s : State}

/-- A cut begun (R173). -/
theorem cutFor (why : CutPurpose) (one : (hand s.buffer).length ≤ 1) (move : s.imaging.move = none)
    (take : s.film.take.length ≤ 16) (pending : why = .pending → hand s.buffer = [])
    (text : why = .segments ∨ why = .length → ∀ r ∈ hand s.buffer, r.text.isSome = true) :
    Sequenced (cutFor why s) := by
  obtain ⟨hand', st', move', cut', take'⟩ := sequence_parts (sequence_cutFor why s)
  rw [← hand'] at one pending text
  rw [← take'] at take
  rw [move] at move'
  have unmoved (m : ImgMove) : (Machine.cutFor why s).imaging.move ≠ some m := by rw [move']; exact nofun
  exact {
    one := one
    rest := fun is => by rw [st'] at is; rcases is with is | is | is <;> cases is
    cutting := fun _ => st'
    pending := fun stage is => by
      rw [cut'] at is
      cases is
      exact pending rfl
    text := fun stage w is kind => by
      rw [cut'] at is
      cases is
      exact text kind
    turret := fun p is => absurd is (unmoved _)
    lens := fun l is => absurd is (unmoved _)
    flash := fun is => absurd is (unmoved _)
    start := fun is => is.elim (absurd · (unmoved _)) (absurd · (unmoved _))
    take := take
    line := fun is => by rw [st'] at is; rcases is with is | is <;> cases is }

theorem stopFilmOut (cut : s.film.cut = none) (take : s.film.take.length ≤ 16) : Sequenced (stopFilmOut s) := by
  obtain ⟨hand', -, move', cut', take'⟩ := sequence_parts (sequence_stopFilmOut s)
  exact .idle hand' move' (cut'.trans cut) (take' ▸ take)

theorem addLine_length {take : List Segment} {j : JobId} {x : TextLine} (short : take.length ≤ 16)
    (room : take.length < 16 ∨ ∃ g, take.getLast? = some g ∧ g.job = j ∧ g.last + 1 = x.line) :
    (addLine take j x).length ≤ 16 := by
  unfold addLine
  cases last : take.getLast? with
  | none => exact Nat.succ_le_of_lt (Nat.zero_lt_succ _)
  | some g =>
    have some_ : take ≠ [] := by rintro rfl; cases last
    have long := List.length_pos_of_ne_nil some_
    dsimp only
    split
    · simp
      omega
    · next not_ =>
      rcases room with room | ⟨g', is, job, next⟩
      · simp
        omega
      · rw [last] at is
        cases is
        exact absurd ⟨job, next⟩ not_

/-- The line in hand is exposed (R149). -/
theorem lineExposed (h : Sequenced s) (st : s.imaging.st = .setting) (move : s.imaging.move = none) :
    Sequenced (lineExposed s) := by
  have cut := h.uncut (by rw [st]; decide)
  have ends (t : State) (imaging : t.imaging = s.imaging) (cut_ : t.film.cut = none) (take : t.film.take.length ≤ 16) :
      Sequenced (((Machine.finishImaging t).send (.escape 0)).modImg fun i => { i with st := .idle }) := by
    obtain ⟨hand', -, move', cut', take'⟩ := sequence_parts (finishImaging_sequence t)
    exact .idle hand' (move'.trans (imaging ▸ move)) (cut'.trans cut_) (take' ▸ take)
  unfold Machine.lineExposed
  dsimp only
  split
  · next j x _ _ inHand =>
    refine ends _ rfl cut (addLine_length h.take ?_)
    exact h.line (.inr st) _ (imgRecord_hand inHand) x rfl
  · exact ends _ rfl cut h.take

theorem startMove (h : Sequenced s) (st : s.imaging.st = .setting) (m : ImgMove) (inLine : m ≠ .lensHome ∧ m ≠ .readStrip) :
    Sequenced (startMove m s) := by
  obtain ⟨hand', st', move', cut', take'⟩ := sequence_parts (sequence_startMove m s)
  refine .atLine (.inr ⟨st'.trans st, ?_, ?_⟩) (hand' ▸ h.one) (cut'.trans (h.uncut (by rw [st]; decide)))
    (take' ▸ h.take) (hand' ▸ take' ▸ h.line (.inr st))
  · rw [move']
    exact fun is => inLine.1 (Option.some.inj is)
  · rw [move']
    exact fun is => inLine.2 (Option.some.inj is)

theorem flashElement (h : Sequenced s) (st : s.imaging.st = .setting) (e : Element) : Sequenced (flashElement e s) := by
  obtain ⟨hand', st', move', cut', take'⟩ := sequence_parts (sequence_flashElement e s)
  refine .atLine (.inr ⟨st'.trans st, ?_, ?_⟩) (hand' ▸ h.one) (cut'.trans (h.uncut (by rw [st]; decide)))
    (take' ▸ h.take) (hand' ▸ take' ▸ h.line (.inr st))
  · rw [move']; exact nofun
  · rw [move']; exact nofun

theorem runElement (h : Sequenced s) (st : s.imaging.st = .setting) (move : s.imaging.move = none) :
    Sequenced (runElement s) := by
  unfold Machine.runElement
  split
  · exact h.lineExposed st move
  · split
    · split
      · exact h.startMove st _ ⟨nofun, nofun⟩
      · split
        · exact h.startMove st _ ⟨nofun, nofun⟩
        · exact h.flashElement st _
    · split
      · exact h.startMove st _ ⟨nofun, nofun⟩
      · exact h.flashElement st _

end Sequenced

/-- A line in hand, nothing in flight and nothing being cut (R146 to R148). -/
structure LineTaken (s : State) : Prop where
  one : (hand s.buffer).length ≤ 1
  move : s.imaging.move = none
  cut : s.film.cut = none
  take : s.film.take.length ≤ 16

theorem LineTaken.of_same {s t : State} (same : sequence t = sequence s) (h : LineTaken s) : LineTaken t := by
  simp only [sequence, Prod.mk.injEq] at same
  obtain ⟨hand_, -, move, cut, take⟩ := same
  exact ⟨hand_ ▸ h.one, move ▸ h.move, cut ▸ h.cut, take ▸ h.take⟩

/-- The record in hand is a line. -/
def LineHeld (s : State) : Prop := ∀ r ∈ hand s.buffer, r.text.isSome = true

/-- The take has room for the line in hand (R167). -/
def HasRoom (s : State) : Prop := ∀ r ∈ hand s.buffer, RoomFor s.film.take r

namespace Sequenced

variable {s : State}

theorem beginSetting (h : LineTaken s) (room : HasRoom s) : Sequenced (beginSetting s) := by
  have begun : Sequenced (s.modImg fun i => { i with st := .setting, elem := 0 }) :=
    .atLine (.inr ⟨rfl, ne_of_eq_of_ne h.move nofun, ne_of_eq_of_ne h.move nofun⟩) h.one h.cut h.take room
  exact begun.runElement rfl h.move

/-- A line that advances (R148). -/
theorem advancing (st : s.imaging.st = .advancing) (h : LineTaken s) (room : HasRoom s) : Sequenced s :=
  .atLine (.inl ⟨st, h.move⟩) h.one h.cut h.take room

theorem reverseLine (st : s.imaging.st = .advancing) (h : LineTaken s) (room : HasRoom s) (j : JobId) (l : Int) :
    Sequenced (reverseLine j l s) := by
  have moves : Sequenced s := .advancing st h room
  unfold Machine.reverseLine
  dsimp only
  split
  · exact .of_same (s := s) rfl moves
  · split
    · exact .beginSetting (.of_same (s := s) rfl h) room
    · exact .of_same (s := s) rfl moves

theorem moveLine (st : s.imaging.st = .advancing) (h : LineTaken s) (room : HasRoom s) (j : JobId) (l : Int) :
    Sequenced (moveLine j l s) := by
  unfold Machine.moveLine
  dsimp only
  split
  · split
    · exact .stopFilmOut h.cut h.take
    · exact .cutFor _ h.one h.move h.take nofun fun is => is.elim nofun nofun
  · split
    · exact (advancing st h room).of_same (sequence_sendAdvance _ _)
    · split
      · exact .beginSetting h room
      · exact .reverseLine st h room j l

theorem testLength (st : s.imaging.st = .advancing) (h : LineTaken s) (held : LineHeld s) (room : HasRoom s)
    (j : JobId) (l : Int) : Sequenced (testLength j l s) := by
  unfold Machine.testLength
  dsimp only
  split
  · exact .cutFor _ h.one h.move h.take nofun fun _ => held
  · exact .moveLine st h room j l

theorem testSegments (st : s.imaging.st = .advancing) (h : LineTaken s) (j : JobId) (t : TextLine)
    (line : ∀ r ∈ hand s.buffer, r.job = j ∧ r.text = some t) : Sequenced (testSegments j t s) := by
  have held : LineHeld s := fun r mem => by rw [(line r mem).2]; rfl
  unfold Machine.testSegments
  split
  · exact .cutFor _ h.one h.move h.take nofun fun _ => held
  · next not_ =>
    refine .testLength st h held (fun r mem x text => ?_) j _
    obtain ⟨job, is⟩ := line r mem
    rw [is] at text
    cases text
    by_cases full : s.film.take.length = Config.maxSegments
    · refine .inr ?_
      have extends_ : extendsTake s.film.take j t.line = true := by simpa [full] using not_
      unfold extendsTake at extends_
      split at extends_
      · next g last =>
        rw [Bool.and_eq_true, decide_eq_true_iff, decide_eq_true_iff] at extends_
        exact ⟨g, last, extends_.1.trans job.symm, extends_.2⟩
      · cases extends_
    · exact .inl (lt_of_le_of_ne h.take full)

end Sequenced

/-! ## Work taken (R146) -/

theorem hand_of_one {s : State} {r : Record} (one : (hand s.buffer).length ≤ 1) (inHand : imgRecord s = some r) :
    hand s.buffer = [unproofed r] := by
  have mem := imgRecord_hand inHand
  generalize hand s.buffer = rs at *
  match rs with
  | [] => cases mem
  | [v] => rw [List.mem_singleton.1 mem]
  | _ :: _ :: _ => simp at one

theorem hand_beginImg (bs : List Record) : (hand (beginImg bs)).length ≤ (hand bs).length + 1 := by
  simp only [length_hand]
  induction bs with
  | nil => exact Nat.zero_le _
  | cons r rest ih =>
    unfold beginImg
    split
    · simp only [List.countP_cons]
      split <;> simp
      omega
    · simp only [List.countP_cons]
      omega

namespace Sequenced

variable {s : State}

theorem cutPending (h : Sequenced s) (st : s.imaging.st = .idle) : Sequenced (cutPending s) := by
  have empty := h.rest (.inl st)
  unfold Machine.cutPending
  split
  · exact .of_same (s := s) rfl h
  · exact .cutFor _ h.one (h.unmoved (by rw [st]; decide)) h.take (fun _ => empty) fun _ r mem => by
      rw [empty] at mem
      cases mem

/-- The work on the record just given. -/
theorem beginRecord (h : Sequenced s) (st : s.imaging.st = .idle) (r : Record) (inHand : imgRecord (askImaging s) = some r) :
    Sequenced (beginRecord r (askImaging s)) := by
  have move : s.imaging.move = none := h.unmoved (by rw [st]; decide)
  have cut : s.film.cut = none := h.uncut (by rw [st]; decide)
  have one : (hand (askImaging s).buffer).length ≤ 1 := by
    have begun := hand_beginImg s.buffer
    rw [h.rest (.inl st)] at begun
    exact begun
  have is := hand_of_one one inHand
  unfold Machine.beginRecord
  split
  · next t text =>
    have line (v : Record) (mem : v ∈ hand (askImaging s).buffer) : v.job = r.job ∧ v.text = some t := by
      rw [is, List.mem_singleton] at mem
      subst mem
      exact ⟨rfl, text⟩
    have taken : LineTaken ((askImaging s).modImg fun i => { i with latched := i.written, st := .advancing }) :=
      ⟨one, move, cut, h.take⟩
    have st' : ((askImaging s).modImg fun i => { i with latched := i.written, st := .advancing }).imaging.st = .advancing := rfl
    exact testSegments st' taken r.job t line
  · split
    · obtain ⟨hand', -, move', cut', take'⟩ := sequence_parts (finishImaging_sequence (askImaging s))
      exact .idle hand' (move'.trans move) (cut'.trans cut) (take' ▸ h.take)
    · exact .cutFor _ one move h.take nofun fun is => is.elim nofun nofun

theorem runImaging (n : Nat) (h : Sequenced s) : Sequenced (runImaging n s) := by
  induction n generalizing s with
  | zero => exact h
  | succ n ih =>
    unfold Machine.runImaging
    split
    · exact h
    · next idle =>
      have st := not_not.1 idle
      split
      · exact ih (h.cutPending st)
      · split
        · exact h
        · next r inHand => exact ih (h.beginRecord st r inHand)

theorem of_imagingWork {t : State} (same : imagingWork t = imagingWork s) (h : Sequenced s) : Sequenced t := by
  simp only [imagingWork, Prod.mk.injEq] at same
  obtain ⟨-, -, view, imaging, film⟩ := same
  exact h.of_same (by rw [sequence, sequence, hand, hand, view, imaging, film])

theorem of_work {t : State} (same : work t = work s) (h : Sequenced s) : Sequenced t :=
  h.of_imagingWork (imagingWork_of_work same)

theorem settle (before : Nat) (h : Sequenced s) : Sequenced (settle before s) :=
  (h.runImaging (imagingFuel s)).of_imagingWork (imagingWork_settle before s)

end Sequenced

end Sys2Proof.Proofs

/-! PROOFS. The pins, the size of the line buffer and the records in hand (R91, R134 to R141): what the operations keep of
them (O57). -/

namespace Sys2Proof.Proofs

open Sys2Proof.Machine

/-! ## The elements that hold pins (R137) -/

/-- The elements of the records due or at work for imaging. -/
def live (bs : List Record) : List (List Element) := (bs.filter Record.imgLive).map Record.elements

/-- Some element stands at the position. -/
def isAt (p : Pos) (es : List Element) : Bool := es.any fun e => decide (e.pos = some p)

theorem mem_positions (r : Record) (p : Pos) : p ∈ r.positions ↔ isAt p r.elements = true := by
  simp [Record.positions, isAt, Stable.mem_allPositions]

theorem live_cons (r : Record) (bs : List Record) :
    live (r :: bs) = if r.imgLive then r.elements :: live bs else live bs := by
  simp only [live, List.filter_cons]
  split <;> rfl

theorem mem_live {bs : List Record} {es : List Element} :
    es ∈ live bs ↔ ∃ r ∈ bs, r.imgLive = true ∧ r.elements = es := by
  simp [live, and_assoc]

theorem live_of_view {as bs : List Record} (same : imagingView as = imagingView bs) : live as = live bs := by
  have is (cs : List Record) : live cs = (imagingView cs).map Record.elements := by
    simp only [live, imagingView, List.map_map]
    rfl
  rw [is, is, same]

theorem live_map {f : Record → Record} (same : ∀ r, (f r).imgLive = r.imgLive ∧ (f r).elements = r.elements)
    (bs : List Record) : live (bs.map f) = live bs := by
  induction bs with
  | nil => rfl
  | cons r rest ih => rw [List.map_cons, live_cons, live_cons, ih, (same r).1, (same r).2]

theorem live_imgAgain (bs : List Record) : live (bs.map Record.imgAgain) = live bs := by
  refine live_map (fun r => ?_) bs
  unfold Record.imgAgain
  split
  · next busy => exact ⟨by simp [Record.imgLive, busy], rfl⟩
  · exact ⟨rfl, rfl⟩

theorem live_beginImg (bs : List Record) : live (beginImg bs) = live bs := by
  induction bs with
  | nil => rfl
  | cons r rest ih =>
    unfold beginImg
    split
    · next due =>
      have begun : Record.imgLive { r with img := .busy } = r.imgLive := by simp [Record.imgLive, due]
      rw [live_cons, live_cons, begun]
      rfl
    · rw [live_cons, live_cons, ih]

theorem hand_cons (r : Record) (bs : List Record) :
    hand (r :: bs) = if r.img = .busy then unproofed r :: hand bs else hand bs := by
  rw [hand, imagingView_cons]
  by_cases busy : r.img = .busy
  · simp [hand, unproofed, Record.imgLive, busy]
  · rw [if_neg busy]
    split
    · simp [hand, unproofed, busy]
    · rfl

/-- What a record finished takes away. -/
theorem live_imgDone (bs : List Record) (q : List Element → Bool) :
    (live bs).countP q = (live (bs.map Record.imgDone)).countP q + ((hand bs).map Record.elements).countP q := by
  induction bs with
  | nil => rfl
  | cons r rest ih =>
    rw [List.map_cons, live_cons, live_cons, hand_cons]
    by_cases busy : r.img = .busy
    · have live_ : r.imgLive = true := by simp [Record.imgLive, busy]
      have done : r.imgDone.imgLive = false := by simp [Record.imgDone, Record.imgLive, busy]
      rw [if_pos live_, if_neg (by rw [done]; exact Bool.false_ne_true), if_pos busy]
      simp only [List.map_cons, List.countP_cons, show (unproofed r).elements = r.elements from rfl]
      omega
    · have same : r.imgDone = r := if_neg busy
      rw [same, if_neg busy]
      split
      · simp only [List.countP_cons]
        omega
      · exact ih

theorem live_imgDone_sub {bs : List Record} {es : List Element} (mem : es ∈ live (bs.map Record.imgDone)) : es ∈ live bs := by
  obtain ⟨r, there, live_, rfl⟩ := mem_live.1 mem
  obtain ⟨b, old, rfl⟩ := List.mem_map.1 there
  unfold Record.imgDone at live_ ⊢
  split at live_
  · cases live_
  · next notBusy => exact mem_live.2 ⟨b, old, live_, by rw [if_neg notBusy]⟩

/-- The pins after the records of a list have been released. -/
theorem unpinRecords_pos (rs : List Record) (s : State) (p : Pos) :
    (rs.foldl (fun t r => unpinRecord r t) s).mount.pos[p] =
      { s.mount.pos[p] with pins := s.mount.pos[p].pins - (rs.map Record.elements).countP (isAt p) } := by
  induction rs generalizing s with
  | nil => rfl
  | cons r rest ih =>
    rw [List.foldl_cons, ih, unpinRecord_pos, List.map_cons, List.countP_cons]
    by_cases here : isAt p r.elements = true
    · rw [if_pos ((mem_positions r p).2 here), if_pos here]
      rw [← Nat.sub_sub, Nat.sub_right_comm]
    · rw [if_neg fun mem => here ((mem_positions r p).1 mem), if_neg here]
      rfl

/-! ## The pins -/

/-- The pins are those of the elements, each at the position of its font, and one record at most is in hand (R91, R138). -/
structure Pinned (s : State) : Prop where
  pins : ∀ p : Pos, s.mount.pos[p].pins = (live s.buffer).countP (isAt p)
  fonts : ∀ es ∈ live s.buffer, ∀ e ∈ es, ∀ p : Pos, e.pos = some p → s.mount.pos[p].font = some e.font
  one : (hand s.buffer).length ≤ 1

theorem pinsSound_iff (s : State) :
    PinsSound s ↔ (∀ p : Pos, s.mount.pos[p].pins = (live s.buffer).countP (isAt p)) ∧
      ∀ es ∈ live s.buffer, ∀ e ∈ es, ∀ p : Pos, e.pos = some p → s.mount.pos[p].font = some e.font := by
  unfold PinsSound live
  simp only [List.countP_map, List.forall_mem_map, List.mem_filter, and_imp]
  exact Iff.rfl

theorem font_of_st {p q : Position} (same : p.st = q.st) : p.font = q.font := by
  unfold Position.font
  rw [same]

namespace Pinned

variable {s t : State}

theorem of_places (same : places t = places s) (live_ : live t.buffer = live s.buffer)
    (one : (hand t.buffer).length ≤ 1) (h : Pinned s) : Pinned t := by
  have each (p : Pos) : t.mount.pos[p].st = s.mount.pos[p].st ∧ t.mount.pos[p].pins = s.mount.pos[p].pins := by
    have at_ : (places t)[p] = (places s)[p] := by rw [same]
    rw [places_get, places_get, Prod.mk.injEq] at at_
    exact at_
  refine ⟨fun p => ?_, fun es mem e elem p at_ => ?_, one⟩
  · rw [(each p).2, live_]
    exact h.pins p
  · rw [font_of_st (each p).1]
    exact h.fonts es (live_ ▸ mem) e elem p at_

theorem of_imagingWork (same : imagingWork t = imagingWork s) (h : Pinned s) : Pinned t := by
  simp only [imagingWork, Prod.mk.injEq] at same
  obtain ⟨pos, -, view, -⟩ := same
  exact h.of_places (by rw [places, places, pos]) (live_of_view view) (by rw [hand, view]; exact h.one)

theorem of_work (same : work t = work s) (h : Pinned s) : Pinned t := h.of_imagingWork (imagingWork_of_work same)

/-- Records released and taken from the buffer. -/
theorem released {rs : List Record} {bs : List Record}
    (pos : ∀ p : Pos, t.mount.pos[p] =
      { s.mount.pos[p] with pins := s.mount.pos[p].pins - (rs.map Record.elements).countP (isAt p) })
    (buffer : live t.buffer = live bs)
    (gone : ∀ q, (live s.buffer).countP q = (live bs).countP q + (rs.map Record.elements).countP q)
    (kept : ∀ es ∈ live bs, es ∈ live s.buffer) (one : (hand t.buffer).length ≤ 1) (h : Pinned s) : Pinned t := by
  refine ⟨fun p => ?_, fun es mem e elem p at_ => ?_, one⟩
  · rw [pos p, buffer]
    show s.mount.pos[p].pins - _ = _
    rw [h.pins p, gone]
    exact Nat.add_sub_cancel _ _
  · rw [font_of_st (q := s.mount.pos[p]) (by rw [pos p])]
    exact h.fonts es (kept es (buffer ▸ mem)) e elem p at_

theorem finishImaging (h : Pinned s) : Pinned (finishImaging s) := by
  cases inHand : imgRecord s with
  | none => rwa [finishImaging_none inHand]
  | some r =>
    have same : work (Machine.finishImaging s) = work { unpinRecord r s with buffer := staying (s.buffer.map Record.imgDone) } :=
      work_of_outside (finishImaging_outside inHand)
    have is := hand_of_one h.one inHand
    refine released (rs := [r]) (bs := s.buffer.map Record.imgDone) (fun p => ?_) ?_ (fun q => ?_)
      (fun _ => live_imgDone_sub) ?_ h
    · rw [pos_of_work same]
      exact unpinRecords_pos [r] s p
    · rw [buffer_of_work same]
      exact live_of_view (imagingView_staying _)
    · rw [live_imgDone, is]
      rfl
    · rw [buffer_of_work same, hand_staying, hand_imgDone]
      exact Nat.zero_le 1

theorem askImaging (none_ : hand s.buffer = []) (h : Pinned s) : Pinned (askImaging s) := by
  refine of_places (s := s) rfl (live_beginImg _) ?_ h
  have begun := hand_beginImg s.buffer
  rw [none_] at begun
  exact begun

theorem giveBackImaging (h : Pinned s) : Pinned (giveBackImaging s) := by
  refine of_places (s := s) rfl (live_imgAgain _) ?_ h
  show (hand (s.buffer.map Record.imgAgain)).length ≤ 1
  rw [hand_imgAgain]
  exact Nat.zero_le 1

end Pinned

/-! ## The buffer's places (R134, R139) -/

/-- At most 64 records, one of them in hand of the proof channel. -/
def Fits (bs : List Record) : Prop := bs.length ≤ 64 ∧ (bs.countP fun r => decide (r.proof = .busy)) ≤ 1

theorem Fits.staying {bs : List Record} (h : Fits bs) : Fits (staying bs) :=
  ⟨(List.length_filter_le _ _).trans h.1, (List.Sublist.countP_le List.filter_sublist).trans h.2⟩

/-- Records changed one by one, none coming to be in hand of the proof channel. -/
theorem Fits.map {bs : List Record} {f : Record → Record} (same : ∀ r, (f r).proof = .busy → r.proof = .busy)
    (h : Fits bs) : Fits (bs.map f) := by
  refine ⟨by rw [List.length_map]; exact h.1, ?_⟩
  rw [List.countP_map]
  refine (List.countP_mono_left fun r _ busy => ?_).trans h.2
  exact decide_eq_true (same r (of_decide_eq_true busy))

theorem Fits.beginImg {bs : List Record} (h : Fits bs) : Fits (beginImg bs) := by
  have same : (Machine.beginImg bs).length = bs.length ∧ ((Machine.beginImg bs).countP fun r => decide (r.proof = .busy)) = bs.countP fun r => decide (r.proof = .busy) := by
    clear h
    induction bs with
    | nil => exact ⟨rfl, rfl⟩
    | cons r rest ih =>
      unfold Machine.beginImg
      split
      · exact ⟨rfl, rfl⟩
      · simp only [List.length_cons, List.countP_cons, ih, and_self]
  exact ⟨same.1 ▸ h.1, same.2 ▸ h.2⟩

theorem Fits.beginProof {bs : List Record} (none_ : ∀ r ∈ bs, r.proof ≠ .busy) (h : bs.length ≤ 64) : Fits (beginProof bs) := by
  have count : (bs.countP fun r => decide (r.proof = .busy)) = 0 :=
    List.countP_eq_zero.2 fun r mem => by rw [decide_eq_true_iff]; exact none_ r mem
  have same : (Machine.beginProof bs).length = bs.length ∧ ((Machine.beginProof bs).countP fun r => decide (r.proof = .busy)) ≤
      (bs.countP fun r => decide (r.proof = .busy)) + 1 := by
    clear none_ h count
    induction bs with
    | nil => exact ⟨rfl, Nat.zero_le _⟩
    | cons r rest ih =>
      unfold Machine.beginProof
      split
      · refine ⟨rfl, ?_⟩
        simp only [List.countP_cons, decide_true, if_true]
        omega
      · simp only [List.length_cons, List.countP_cons, ih, true_and]
        omega
  rw [count] at same
  exact ⟨same.1 ▸ h, same.2⟩

theorem Fits.excuse (s : State) {bs : List Record} (h : Fits bs) : Fits (excuse s bs).1 := by
  have same : (Machine.excuse s bs).1.length = bs.length ∧
      ((Machine.excuse s bs).1.countP fun r => decide (r.proof = .busy)) = bs.countP fun r => decide (r.proof = .busy) := by
    clear h
    induction bs with
    | nil => exact ⟨rfl, rfl⟩
    | cons r rest ih =>
      unfold Machine.excuse
      split
      · next due =>
        split
        · simp [ih, due]
        · exact ⟨rfl, rfl⟩
      · simp only [List.length_cons, List.countP_cons, ih, and_self]
  exact ⟨same.1 ▸ h.1, same.2 ▸ h.2⟩

theorem fits_excuseProofs {s : State} (h : Fits s.buffer) : Fits (excuseProofs s).buffer := by
  by_cases none_ : (excuse s s.buffer).2 = []
  · rwa [excuseProofs_none none_]
  · rw [excuseProofs_some none_, sweep_buffer, buffer_of_work (work_excused s)]
    exact (h.excuse s).staying

theorem buffer_beginPrinting (j : JobId) (t : TextLine) (s : State) : (beginPrinting j t s).buffer = s.buffer := by
  simp only [beginPrinting]
  generalize pageStart s j = start
  generalize proofLine s.proof.marks t ++ newLine = line
  split <;> rfl

theorem fits_runProof {s : State} (h : Fits s.buffer) : Fits (runProof s).buffer := by
  unfold runProof
  split
  · unfold askProof
    split
    · exact h
    · next none_ =>
      dsimp only
      split
      · rw [buffer_beginPrinting]
        exact .beginProof ((proofRecord_none s).1 none_) h.1
      · exact h
  · exact fits_excuseProofs h

theorem fits_giveBackPrinting {s : State} (h : Fits s.buffer) : Fits (giveBackPrinting s).buffer := by
  unfold giveBackPrinting
  split
  · exact h
  · unfold giveBackProof
    rw [sweep_buffer]
    refine Fits.staying (h.map fun r => ?_)
    unfold Record.proofAgain
    split
    · exact fun _ => ‹_›
    · exact id

theorem fits_finishProof {s : State} (h : Fits s.buffer) : Fits (finishProof s).buffer := by
  unfold finishProof
  split
  · exact h
  · rw [sweep_buffer]
    refine Fits.staying (h.map fun r => ?_)
    unfold Record.proofDone
    split
    · exact fun _ => ‹_›
    · exact id

end Sys2Proof.Proofs

/-! PROOFS. What a spoil, a cancellation, an append and what follows an event keep of the pins, the buffer and the sequencer
(O57). -/

namespace Sys2Proof.Proofs

open Sys2Proof.Machine

/-! ## The sequencer's work carries pins and buffer along -/

/-- The pins, the buffer's places and the records in hand. -/
def Carried (s : State) : Prop := Pinned s ∧ Fits s.buffer

theorem finishImaging_buffer {s : State} {r : Record} (inHand : imgRecord s = some r) :
    (finishImaging s).buffer = staying (s.buffer.map Record.imgDone) := by
  have same : work (finishImaging s) = work { unpinRecord r s with buffer := staying (s.buffer.map Record.imgDone) } :=
    work_of_outside (finishImaging_outside inHand)
  rw [buffer_of_work same]

theorem carried_imaged : Imaged Carried where
  frame s t same h := by
    simp only [besideImaging, Prod.mk.injEq] at same
    obtain ⟨-, -, -, buffer, places_⟩ := same
    exact ⟨h.1.of_places places_ (by rw [buffer]) (by rw [buffer]; exact h.1.one), by rw [buffer]; exact h.2⟩
  clamped j s h := ⟨Pinned.of_work (s := s) rfl h.1, h.2⟩
  finished s h := by
    refine ⟨h.1.finishImaging, ?_⟩
    cases inHand : imgRecord s with
    | none => rw [finishImaging_none inHand]; exact h.2
    | some r =>
      rw [finishImaging_buffer inHand]
      refine Fits.staying (h.2.map fun b => ?_)
      unfold Record.imgDone
      split <;> exact id
  returned s h := by
    refine ⟨h.1.giveBackImaging, h.2.map fun b => ?_⟩
    unfold Record.imgAgain
    split <;> exact id

theorem Carried.of_work {s t : State} (same : work t = work s) (h : Carried s) : Carried t :=
  ⟨h.1.of_work same, by rw [buffer_of_work same]; exact h.2⟩

theorem Carried.runImaging (n : Nat) {s : State} (sequenced : Sequenced s) (h : Carried s) : Carried (runImaging n s) := by
  induction n generalizing s with
  | zero => exact h
  | succ n ih =>
    unfold Machine.runImaging
    split
    · exact h
    · next idle =>
      have st := not_not.1 idle
      split
      · exact ih (sequenced.cutPending st) (carried_imaged.cutPending h)
      · split
        · exact h
        · next r inHand =>
          have asked : Carried (askImaging s) := ⟨h.1.askImaging (sequenced.rest (.inl st)), h.2.beginImg⟩
          exact ih (sequenced.beginRecord st r inHand) (carried_imaged.beginRecord r asked)

/-- The mount table, the line buffer, the sequencer and the take agree, but for the engine's room. -/
structure Sound (s : State) : Prop where
  carried : Carried s
  sequenced : Sequenced s

theorem Sound.of_work {s t : State} (same : work t = work s) (h : Sound s) : Sound t :=
  ⟨h.carried.of_work same, h.sequenced.of_work same⟩

/-- What follows an event keeps the agreement (R146, R140). -/
theorem Sound.settle {s : State} (before : Nat) (h : Sound s) : Sound (settle before s) := by
  refine ⟨Carried.of_work (work_settle before s) ?_, h.sequenced.settle before⟩
  have run : Carried (settleImaging s) := h.carried.runImaging _ h.sequenced
  exact ⟨run.1.of_imagingWork (imagingWork_runProof _), fits_runProof run.2⟩

/-! ## Spoils and cancellations -/

theorem flushedBuffer_rests (segs : List Segment) (bs : List Record) : ∀ r ∈ flushedBuffer segs bs, r.imgLive = false := by
  intro r mem
  obtain ⟨b, -, is⟩ := List.mem_filterMap.1 (List.mem_of_mem_filter mem)
  unfold Record.flushed at is
  split at is
  · split at is
    · exact Option.some.inj is ▸ rfl
    · cases is
  · next notLive => exact Option.some.inj is ▸ Bool.not_eq_true _ ▸ notLive

theorem hand_flushedBuffer (segs : List Segment) (bs : List Record) : hand (flushedBuffer segs bs) = [] :=
  (hand_nil _).2 fun r mem busy => by
    have rests := flushedBuffer_rests segs bs r mem
    simp [Record.imgLive, busy] at rests

theorem live_flushedBuffer (segs : List Segment) (bs : List Record) : live (flushedBuffer segs bs) = [] :=
  List.eq_nil_iff_forall_not_mem.2 fun es mem => by
    obtain ⟨r, there, is, -⟩ := mem_live.1 mem
    rw [flushedBuffer_rests segs bs r there] at is
    cases is

theorem fits_flushedBuffer (segs : List Segment) {bs : List Record} (h : Fits bs) : Fits (flushedBuffer segs bs) := by
  have left : Fits (bs.filterMap Record.flushed) := by
    refine ⟨(List.length_filterMap_le _ _).trans h.1, ?_⟩
    rw [List.countP_filterMap]
    refine (List.countP_mono_left fun r _ busy => ?_).trans h.2
    unfold Record.flushed at busy
    split at busy
    · split at busy
      · next is => exact decide_eq_true is
      · cases busy
    · exact busy
  exact ⟨(List.length_filter_le _ _).trans left.1, (List.Sublist.countP_le List.filter_sublist).trans left.2⟩

/-- After a spoil nothing is pinned and no record is in hand (R143, R175). -/
theorem Carried.spoil {s : State} (h : Carried s) : Carried (spoil s) := by
  have buffer : (Machine.spoil s).buffer = flushedBuffer s.film.take s.buffer := flush_buffer _ _
  refine ⟨h.1.released (rs := s.buffer.filter Record.imgLive) (bs := []) (fun p => ?_) ?_ (fun q => ?_) nofun ?_, ?_⟩
  · have pos : (Machine.spoil s).mount.pos =
        (unpinned (s.modFilm fun f =>
          { f with take := [], pendingCut := false, move := none, cut := none, cutTimer := none })).mount.pos :=
      flush_pos _ _
    rw [pos]
    exact unpinRecords_pos _ _ p
  · rw [buffer, live_flushedBuffer]
    rfl
  · exact (Nat.zero_add _).symm
  · rw [buffer, hand_flushedBuffer]
    exact Nat.zero_le 1
  · rw [buffer]
    exact fits_flushedBuffer _ h.2

theorem hand_spoil (s : State) : hand (spoil s).buffer = [] := by
  rw [show (spoil s).buffer = _ from flush_buffer _ _, hand_flushedBuffer]

theorem live_spoil (s : State) : live (spoil s).buffer = [] := by
  rw [show (spoil s).buffer = _ from flush_buffer _ _, live_flushedBuffer]

theorem work_cancelledState (j : JobId) (s : State) : work (cancelledState j s) = work s := by
  have left : work (if s.jobs[j].state = .waitMount then leaveWaiters j s else s) = work s := by
    split
    · exact work_leaveWaiters j s
    · rfl
  unfold cancelledState
  dsimp only
  split <;> exact left

theorem cancelledBuffer_other {j : JobId} {r : Record} (other : r.job ≠ j) (bs : List Record) :
    cancelledBuffer j (r :: bs) = r :: cancelledBuffer j bs := by
  rw [cancelledBuffer, List.map_cons, if_neg other, List.filter_cons_of_pos (by simp [other])]
  rfl

theorem cancelledBuffer_mine {j : JobId} {r : Record} (mine : r.job = j) (bs : List Record) :
    cancelledBuffer j (r :: bs) =
      if r.cancelled.imgLive || r.cancelled.proofLive then r.cancelled :: cancelledBuffer j bs else cancelledBuffer j bs := by
  have job : r.cancelled.job = j := mine
  rw [cancelledBuffer, List.map_cons, if_pos mine, List.filter_cons]
  simp only [job, ne_eq, not_true_eq_false, decide_false, Bool.false_or]
  rfl

theorem cancelled_imgLive (r : Record) : r.cancelled.imgLive = decide (r.img = .busy) := by
  cases img : r.img <;> simp [Record.cancelled, Record.imgLive, img]

theorem live_cancelledBuffer_mine {j : JobId} {r : Record} (mine : r.job = j) (bs : List Record) :
    live (cancelledBuffer j (r :: bs)) =
      if r.img = .busy then r.elements :: live (cancelledBuffer j bs) else live (cancelledBuffer j bs) := by
  rw [cancelledBuffer_mine mine]
  by_cases busy : r.img = .busy
  · have live_ : r.cancelled.imgLive = true := by rw [cancelled_imgLive, decide_eq_true busy]
    rw [if_pos (by rw [live_]; rfl), live_cons, if_pos live_, if_pos busy]
    rfl
  · have gone : r.cancelled.imgLive = false := by rw [cancelled_imgLive, decide_eq_false busy]
    rw [if_neg busy]
    split
    · rw [live_cons, if_neg (by rw [gone]; exact Bool.false_ne_true)]
    · rfl

/-- The records of a job that a cancellation releases (R142). -/
def dueOf (j : JobId) (bs : List Record) : List Record :=
  (bs.filter fun r => decide (r.job = j)).filter fun r => decide (r.img = .due)

theorem dueOf_cons (j : JobId) (r : Record) (bs : List Record) :
    dueOf j (r :: bs) = if r.job = j ∧ r.img = .due then r :: dueOf j bs else dueOf j bs := by
  by_cases mine : r.job = j <;> by_cases due : r.img = .due <;> simp [dueOf, mine, due]

/-- What a cancellation takes away: the job's records due for imaging (R142). -/
theorem live_cancelled (j : JobId) (bs : List Record) (q : List Element → Bool) :
    (live bs).countP q = (live (cancelledBuffer j bs)).countP q + ((dueOf j bs).map Record.elements).countP q := by
  induction bs with
  | nil => rfl
  | cons r rest ih =>
    rw [live_cons, dueOf_cons]
    by_cases mine : r.job = j
    · rw [live_cancelledBuffer_mine mine]
      by_cases busy : r.img = .busy
      · rw [if_pos (by simp [Record.imgLive, busy]), if_pos busy, if_neg (by rw [busy]; exact fun h => nomatch h.2)]
        simp only [List.countP_cons]
        omega
      · rw [if_neg busy]
        by_cases due : r.img = .due
        · rw [if_pos (by simp [Record.imgLive, due]), if_pos ⟨mine, due⟩]
          simp only [List.map_cons, List.countP_cons]
          omega
        · rw [if_neg (by simp [Record.imgLive, busy, due]), if_neg fun h => due h.2]
          exact ih
    · rw [cancelledBuffer_other mine, live_cons, if_neg (c := r.job = j ∧ r.img = .due) fun h => mine h.1]
      split
      · simp only [List.countP_cons]
        omega
      · exact ih

theorem live_cancelled_sub {j : JobId} {bs : List Record} {es : List Element} (mem : es ∈ live (cancelledBuffer j bs)) :
    es ∈ live bs := by
  have some_ : 0 < (live (cancelledBuffer j bs)).countP fun x => decide (x = es) :=
    List.countP_pos_iff.2 ⟨es, mem, decide_eq_true rfl⟩
  have whole := live_cancelled j bs fun x => decide (x = es)
  obtain ⟨x, there, is⟩ := List.countP_pos_iff.1 (show 0 < (live bs).countP fun x => decide (x = es) by omega)
  exact of_decide_eq_true is ▸ there

theorem hand_cancelledBuffer (j : JobId) (bs : List Record) : hand (cancelledBuffer j bs) = hand bs := by
  induction bs with
  | nil => rfl
  | cons r rest ih =>
    rw [hand_cons]
    by_cases mine : r.job = j
    · rw [cancelledBuffer_mine mine]
      by_cases busy : r.img = .busy
      · have live_ : r.cancelled.imgLive = true := by rw [cancelled_imgLive, decide_eq_true busy]
        have same : r.cancelled.img = .busy := if_pos busy
        have view : unproofed r.cancelled = unproofed r := by simp [unproofed, Record.cancelled, busy]
        rw [if_pos (by rw [live_]; rfl), hand_cons, if_pos same, if_pos busy, ih, view]
      · have notBusy : r.cancelled.img ≠ .busy := by
          have gone := cancelled_imgLive r
          rw [decide_eq_false busy] at gone
          intro is
          simp [Record.imgLive, is] at gone
        rw [if_neg busy]
        split
        · rw [hand_cons, if_neg notBusy, ih]
        · exact ih
    · rw [cancelledBuffer_other mine, hand_cons, ih]

theorem fits_cancelledBuffer (j : JobId) {bs : List Record} (h : Fits bs) : Fits (cancelledBuffer j bs) := by
  have changed : Fits (bs.map fun r => if r.job = j then r.cancelled else r) := by
    refine h.map fun r => ?_
    split
    · show (if r.proof = .busy then _ else if r.proof = .due then _ else r.proof) = _ → _
      split
      · exact fun _ => ‹_›
      · split
        · exact nofun
        · exact id
    · exact id
  exact ⟨(List.length_filter_le _ _).trans changed.1, (List.Sublist.countP_le List.filter_sublist).trans changed.2⟩

/-- A job cancelled past RECEIVING keeps the agreement (R142). -/
theorem Sound.cancelJob (j : JobId) {s : State} (h : Sound s) : Sound (cancelJob j s) := by
  have begun : Sound (cancelledState j s) := h.of_work (work_cancelledState j s)
  rw [cancelJob_eq]
  refine Sound.of_work (work_checkJob _ _) ?_
  generalize cancelledState j s = t at begun
  obtain ⟨pos, port, is⟩ := unpinRecords_frame (dueOf j t.buffer) t
  let u : State := { (dueOf j t.buffer).foldl (fun t r => unpinRecord r t) t with buffer := cancelledBuffer j t.buffer }
  have same : work (cancelRecords j t) = work u := by
    have left : cancelRecords j t = refreshEngine u := by
      have buffer : ((dueOf j t.buffer).foldl (fun t r => unpinRecord r t) t).buffer = t.buffer := by rw [is]
      show refreshEngine { (dueOf j t.buffer).foldl (fun t r => unpinRecord r t) t with
        buffer := cancelledBuffer j ((dueOf j t.buffer).foldl (fun t r => unpinRecord r t) t).buffer } = _
      rw [buffer]
    rw [left, work_refreshEngine]
  refine Sound.of_work same ⟨⟨begun.carried.1.released (rs := dueOf j t.buffer) (bs := cancelledBuffer j t.buffer)
    (unpinRecords_pos _ t) rfl (live_cancelled j _) (fun _ => live_cancelled_sub) ?_, fits_cancelledBuffer j begun.carried.2⟩, ?_⟩
  · show (hand (cancelledBuffer j t.buffer)).length ≤ 1
    rw [hand_cancelledBuffer]
    exact begun.carried.1.one
  · refine begun.sequenced.of_same ?_
    show (hand (cancelledBuffer j t.buffer), _) = _
    rw [hand_cancelledBuffer]
    simp only [u, is]
    rfl

end Sys2Proof.Proofs

/-! PROOFS. A line build, the strips and the events keep the pins, the buffer and the sequencer in agreement (O57). -/

namespace Sys2Proof.Proofs

open Sys2Proof.Machine

/-! ## Records appended (R136, R137) -/

theorem live_append (bs : List Record) (r : Record) :
    live (bs ++ [r]) = live bs ++ if r.imgLive then [r.elements] else [] := by
  simp only [live, List.filter_append, List.map_append, List.filter_cons, List.filter_nil]
  split <;> rfl

theorem hand_append {r : Record} (rests : r.img ≠ .busy) (bs : List Record) : hand (bs ++ [r]) = hand bs := by
  have none_ : (hand [r]) = [] := by rw [hand_cons, if_neg rests]; rfl
  have split_ : hand (bs ++ [r]) = hand bs ++ hand [r] := by simp [hand, imagingView]
  rw [split_, none_, List.append_nil]

/-- A record appended with its pins raised, if it is due for imaging. -/
theorem Sound.appended {s t : State} {r : Record} (buffer : t.buffer = s.buffer ++ [r]) (rests : r.img ≠ .busy)
    (unprinted : r.proof ≠ .busy) (room : s.buffer.length < 64)
    (outside : sequence t = sequence { s with buffer := s.buffer ++ [r] })
    (pos : ∀ p : Pos, t.mount.pos[p] =
      { s.mount.pos[p] with pins :=
          if r.imgLive = true ∧ p ∈ r.positions then s.mount.pos[p].pins + 1 else s.mount.pos[p].pins })
    (fonts : r.imgLive = true → ∀ e ∈ r.elements, ∀ p : Pos, e.pos = some p → s.mount.pos[p].font = some e.font)
    (h : Sound s) : Sound t := by
  obtain ⟨⟨pinned, fits⟩, sequenced⟩ := h
  refine ⟨⟨⟨fun p => ?_, fun es mem e elem p at_ => ?_, ?_⟩, ?_, ?_⟩, sequenced.of_same (outside.trans ?_)⟩
  · rw [pos p, buffer, live_append, List.countP_append]
    show (if _ then _ else _) = _
    rw [pinned.pins p]
    by_cases live_ : r.imgLive = true
    · rw [if_pos live_, List.countP_cons, List.countP_nil, Nat.zero_add]
      by_cases here : isAt p r.elements = true
      · rw [if_pos ⟨live_, (mem_positions r p).2 here⟩, if_pos here]
      · rw [if_neg fun both => here ((mem_positions r p).1 both.2), if_neg here, Nat.add_zero]
    · rw [if_neg fun both => live_ both.1, if_neg live_]
      rfl
  · rw [font_of_st (q := s.mount.pos[p]) (by rw [pos p])]
    rw [buffer, live_append, List.mem_append] at mem
    rcases mem with mem | mem
    · exact pinned.fonts es mem e elem p at_
    · split at mem
      · next live_ =>
        rw [List.mem_singleton.1 mem] at elem
        exact fonts live_ e elem p at_
      · cases mem
  · rw [buffer, hand_append rests]
    exact pinned.one
  · rw [buffer, List.length_append]
    exact room
  · rw [buffer, List.countP_append, List.countP_singleton, if_neg (by rw [decide_eq_true_iff]; exact unprinted)]
    exact fits.2
  · show (hand (s.buffer ++ [r]), _) = _
    rw [hand_append rests]
    rfl

theorem Sound.appendCut (j : JobId) {s : State} (room : s.buffer.length < 64) (h : Sound s) : Sound (appendCut j s) := by
  refine h.appended (r := { job := j, text := none, img := .due, proof := .notDue }) rfl nofun nofun room rfl
    (fun p => ?_) nofun
  rw [if_neg fun both => by cases (mem_positions _ p).1 both.2]
  rfl

theorem proofAtAppend_rests (s : State) (j : JobId) (k : Nat) : proofAtAppend s j k ≠ .busy := by
  unfold proofAtAppend
  dsimp only
  split
  · exact nofun
  · exact nofun
  · split <;> exact nofun
  · split <;> exact nofun

theorem Sound.appendLine (j : JobId) (t : TextLine) {s : State} (room : s.buffer.length < 64)
    (fonts : s.jobs[j].imagingDue = true → ∀ e ∈ t.elements, ∀ p : Pos, e.pos = some p → s.mount.pos[p].font = some e.font)
    (h : Sound s) : Sound (appendLine j t s) := by
  have proofRests := proofAtAppend_rests s j t.line
  unfold Machine.appendLine
  dsimp only
  generalize proofAtAppend s j t.line = proof at proofRests
  refine Sound.of_work (s := if s.jobs[j].imagingDue then _ else _) rfl ?_
  cases due : s.jobs[j].imagingDue with
  | true =>
    rw [if_pos rfl, if_pos rfl]
    let r : Record := { job := j, text := some t, img := .due, proof := proof }
    obtain ⟨pos, is⟩ := pinRecord_frame r { s with buffer := s.buffer ++ [r] }
    refine h.appended (r := r) (by rw [is]) nofun proofRests room (by rw [is]; rfl) (fun p => ?_) fun _ => fonts due
    rw [pinRecord_pos]
    by_cases there : p ∈ r.positions
    · rw [if_pos there, if_pos ⟨rfl, there⟩]
    · rw [if_neg there, if_neg fun both => there both.2]
  | false =>
    rw [if_neg Bool.false_ne_true, if_neg Bool.false_ne_true]
    exact h.appended (r := { job := j, text := some t, img := .notDue, proof := proof }) rfl nofun proofRests room rfl
      (fun p => by rw [if_neg fun both => nomatch both.1]) nofun

/-! ## The build event (R98) -/

theorem work_finishText (j : JobId) (s : State) : work (finishText j s) = work s := work_checkJob _ _

theorem Sound.afterLine (j : JobId) (request atEnd : Bool) {s : State} (h : Sound s) : Sound (afterLine j request atEnd s) := by
  unfold Machine.afterLine
  split
  · split
    · next room =>
      have cut := h.appendCut j room
      dsimp only
      split
      · exact cut.of_work (work_finishText j _)
      · exact cut
    · exact Sound.of_work (s := s) rfl h
  · split
    · exact h.of_work (work_finishText j _)
    · exact h

theorem mountedAt_font {s : State} {f : Nat} {p : Pos} (at_ : mountedAt s f = some p) : s.mount.pos[p].font = some f :=
  of_decide_eq_true (List.find?_some (p := fun p : Pos => decide (s.mount.pos[p].font = some f)) at_)

theorem Sound.recordLine (j : JobId) (c : Closed) (placed : List Placed) (first : Option Nat) (exc : Raised) {s : State}
    (room : s.buffer.length < 64) (h : Sound s) : Sound (recordLine j c placed first exc s) := by
  unfold Machine.recordLine
  dsimp only
  refine Sound.afterLine _ _ _ (Sound.of_work (s := Machine.appendLine j _ s) rfl (h.appendLine j _ room fun due e mem p at_ => ?_))
  obtain ⟨x, -, rfl⟩ := List.mem_map.1 mem
  have pos : (if s.jobs[j].imagingDue then mountedAt s x.glyph.font else none) = some p := at_
  rw [if_pos due] at pos
  exact mountedAt_font pos

theorem Sound.takeResult (j : JobId) (ctx : Context) (r : Result) {s : State} (room : s.buffer.length < 64) (h : Sound s) :
    Sound (takeResult j ctx r s) := by
  have flagged : Sound (flagRaised j r.exc.kinds s) := Sound.of_work (s := s) rfl h
  unfold Machine.takeResult
  dsimp only
  split
  · exact flagged.recordLine _ _ _ _ _ room
  · exact flagged.afterLine _ _ _
  · exact Sound.of_work (s := flagRaised j r.exc.kinds s) (work_enterWaiter _ _ _) flagged
  · exact Sound.of_work (s := flagRaised j r.exc.kinds s) (work_checkJob _ _) flagged
  · exact Sound.of_work (s := flagRaised j r.exc.kinds s) rfl flagged

theorem Sound.buildOnce (j : JobId) {s : State} (room : s.buffer.length < 64) (h : Sound s) : Sound (buildOnce j s) := by
  unfold Machine.buildOnce
  split
  · next o _ =>
    have cut : Sound (Machine.appendCut j { s with engine := { s.engine with owed := none } }) :=
      Sound.appendCut j room (Sound.of_work (s := s) rfl h)
    unfold appendOwed
    dsimp only
    split
    · exact cut
    · exact cut.of_work (work_finishText j _)
  · split
    · unfold preempt
      dsimp only
      split
      · exact Sound.of_work (s := Machine.appendCut j s) rfl (h.appendCut j room)
      · exact Sound.of_work (s := s) rfl h
    · exact h.takeResult j _ _ room

end Sys2Proof.Proofs

/-! PROOFS. The strips, the mechanism and the film: every event keeps the pins, the buffer and the sequencer in agreement
(O57). -/

namespace Sys2Proof.Proofs

open Sys2Proof.Machine

/-! ## The sequencer at rest -/

/-- Nothing in hand, in flight or being cut. -/
structure Rested (s : State) : Prop where
  hand : hand s.buffer = []
  move : s.imaging.move = none
  cut : s.film.cut = none
  take : s.film.take.length ≤ 16

theorem Rested.sequenced {s : State} (h : Rested s) : Sequenced s := .idle h.hand h.move h.cut h.take

/-- A sequencer that is IDLE or STOPPED is at rest. -/
theorem Sequenced.rested {s : State} (h : Sequenced s) (st : s.imaging.st = .idle ∨ s.imaging.st = .stopped) : Rested s where
  hand := h.rest (st.imp_right .inl)
  move := h.unmoved (by rcases st with st | st <;> rw [st] <;> decide)
  cut := h.uncut (by rcases st with st | st <;> rw [st] <;> decide)
  take := h.take

theorem Rested.enterStopped (r : StopReason) {s : State} (h : Rested s) : Rested (enterStopped r s) :=
  ⟨h.hand, h.move, h.cut, h.take⟩

theorem Rested.resumeTest {s : State} (h : Rested s) : Rested (resumeTest s) := by
  unfold Machine.resumeTest
  dsimp only
  split
  · exact ⟨h.hand, h.move, h.cut, h.take⟩
  · split
    · exact h
    · exact h.enterStopped _

theorem carried_resumeTest {s : State} (h : Carried s) : Carried (resumeTest s) := by
  unfold resumeTest
  dsimp only
  split
  · exact carried_imaged.frame s _ rfl h
  · split
    · exact h
    · exact carried_imaged.frame s _ rfl h

theorem Sound.filmChanged {s : State} (h : Sound s) : Sound (filmChanged s) := by
  unfold Machine.filmChanged
  split
  · next is => exact ⟨carried_resumeTest h.carried, (h.sequenced.rested (.inr is.1)).resumeTest.sequenced⟩
  · exact h

theorem Sound.filmLost (r : StopReason) {s : State} (h : Sound s) : Sound (filmLost r s) := by
  let u : State := abandonWork (s.modFilm fun f => { f with move := none, cut := none, cutTimer := none })
  have back : Carried (giveBackImaging u) := carried_imaged.returned u (carried_imaged.frame s _ rfl h.carried)
  have atWork : Sound (enterStopped r (giveBackImaging u)) := by
    refine ⟨carried_imaged.frame (giveBackImaging u) _ rfl back, Rested.sequenced (.enterStopped r ⟨?_, rfl, rfl, h.sequenced.take⟩)⟩
    show hand (s.buffer.map Record.imgAgain) = []
    exact hand_imgAgain _
  unfold Machine.filmLost
  split
  · next st => exact ⟨carried_imaged.frame s _ rfl h.carried, (Rested.enterStopped r (h.sequenced.rested (.inl st))).sequenced⟩
  · exact atWork
  · exact atWork
  · exact atWork
  · next st =>
    split
    · exact ⟨carried_resumeTest h.carried, (h.sequenced.rested (.inr st)).resumeTest.sequenced⟩
    · exact h
  · exact h

/-! ## Spoils and faults -/

theorem spoil_rested {s : State} (move : s.imaging.move = none) : Rested (spoil s) where
  hand := hand_spoil s
  move := by rw [spoil_imaging, move]
  cut := by rw [spoil_film]
  take := by rw [spoil_film]; exact Nat.zero_le 16

theorem Sound.spoil {s : State} (h : Sound s) : Sound (spoil s) := by
  have film := spoil_film s
  have imaging := spoil_imaging s
  have hand_ := hand_spoil s
  refine ⟨h.carried.spoil, ?_⟩
  generalize Machine.spoil s = t at *
  obtain ⟨-, -, -, -, -, turret, lens, flash, start, -, -⟩ := h.sequenced
  rw [← imaging] at turret lens flash start
  exact {
    one := by rw [hand_]; exact Nat.zero_le 1
    rest := fun _ => hand_
    cutting := fun is => by rw [film] at is; cases is
    pending := fun _ _ => hand_
    text := fun _ _ _ _ r mem => by rw [hand_] at mem; cases mem
    turret := turret
    lens := lens
    flash := flash
    start := start
    take := by rw [film]; exact Nat.zero_le 16
    line := fun _ r mem => by rw [hand_] at mem; cases mem }

theorem Sound.mechanismFault (r : StopReason) {s : State} (h : Sound s) : Sound (mechanismFault r s) := by
  have rested : Rested (Machine.spoil (abandonWork s)) := spoil_rested rfl
  have carried : Carried (Machine.spoil (abandonWork s)) := Carried.spoil (carried_imaged.frame s _ rfl h.carried)
  refine ⟨carried_imaged.frame (Machine.spoil (abandonWork s)) _ rfl carried, ?_⟩
  exact Rested.sequenced (.enterStopped r ⟨rested.hand, rested.move, rested.cut, rested.take⟩)

theorem Sound.cutFailed (why : CutPurpose) {s : State} (h : Sound s) : Sound (cutFailed why s) := by
  have rested (t : State) (hand_ : hand t.buffer = []) (cut : t.film.cut = none) (take : t.film.take.length ≤ 16)
      (carried : Carried t) : Sound (cutFault t) :=
    ⟨carried_imaged.frame t _ rfl carried, Rested.sequenced (.enterStopped .cutFault ⟨hand_, rfl, cut, take⟩)⟩
  have film := spoil_film s
  have hand_ := hand_spoil s
  have carried := h.carried.spoil
  unfold Machine.cutFailed
  dsimp only
  generalize Machine.spoil s = t at *
  have cut : t.film.cut = none := by rw [film]
  have take : t.film.take.length ≤ 16 := by rw [film]; exact Nat.zero_le 16
  split
  · exact rested _ hand_ cut take (carried_imaged.frame t _ rfl carried)
  · exact rested _ hand_ cut take carried

/-! ## The strips (R86 to R90) -/

/-- No element of a record due or at work for imaging stands at the position. -/
def Vacant (p : Pos) (s : State) : Prop := ∀ es ∈ live s.buffer, isAt p es = false

theorem Pinned.vacant_of_font {s : State} (h : Pinned s) {p : Pos} (none_ : s.mount.pos[p].font = none) : Vacant p s := by
  intro es mem
  rw [Bool.eq_false_iff]
  intro here
  obtain ⟨e, elem, at_⟩ := List.any_eq_true.1 here
  rw [h.fonts es mem e elem p (of_decide_eq_true at_)] at none_
  cases none_

theorem Pinned.vacant_of_pins {s : State} (h : Pinned s) {p : Pos} (none_ : s.mount.pos[p].pins = 0) : Vacant p s := by
  intro es mem
  rw [h.pins p, List.countP_eq_zero] at none_
  exact Bool.eq_false_iff.2 (none_ es mem)

/-- What a strip at a position does not change. -/
def besideStrips (s : State) : List Record × Imaging × Film := (s.buffer, s.imaging, s.film)

theorem Carried.placed (p : Pos) (f : Position → Position) {s : State} (vacant : Vacant p s)
    (pins : ∀ q, (f q).pins = q.pins) (h : Carried s) : Carried (s.modPos p f) := by
  have entry (q : Pos) : (s.modPos p f).mount.pos[q] = if q = p then f s.mount.pos[p] else s.mount.pos[q] :=
    put_entry _ _ _ _
  refine ⟨⟨fun q => ?_, fun es mem e elem q at_ => ?_, h.1.one⟩, h.2⟩
  · rw [entry]
    split
    · next here => rw [pins, ← here]; exact h.1.pins q
    · exact h.1.pins q
  · rw [entry, if_neg fun here => ?_]
    · exact h.1.fonts es mem e elem q at_
    · have there : isAt p es = true := List.any_eq_true.2 ⟨e, elem, decide_eq_true (here ▸ at_ : e.pos = some p)⟩
      rw [vacant es mem] at there
      cases there

theorem beside_of_work {s t : State} (same : work t = work s) : besideStrips t = besideStrips s := by
  simp only [besideStrips, buffer_of_work same, imaging_of_work same, film_of_work same]

theorem classifyStrip_beside (p : Pos) (c : Nat) (s : State) : besideStrips (classifyStrip p c s) = besideStrips s := by
  unfold classifyStrip
  split
  · rfl
  · split
    · rfl
    · exact beside_of_work (s := s.modPos p _) (work_releaseWaiters _ _)

theorem Carried.classifyStrip (p : Pos) (c : Nat) {s : State} (vacant : Vacant p s) (h : Carried s) :
    Carried (classifyStrip p c s) := by
  unfold Machine.classifyStrip
  split
  · exact h.placed p _ vacant fun _ => rfl
  · split
    · exact h.placed p _ vacant fun _ => rfl
    · refine Carried.of_work (work_releaseWaiters _ _) ?_
      exact h.placed p _ vacant fun _ => rfl

theorem reclassifyAt_beside (s : State) (p : Pos) : besideStrips (reclassifyAt s p) = besideStrips s := by
  unfold reclassifyAt
  split
  · exact classifyStrip_beside _ _ _
  · exact classifyStrip_beside _ _ _
  · rfl

theorem Carried.reclassifyAt (p : Pos) {s : State} (h : Carried s) : Carried (reclassifyAt s p) := by
  unfold Machine.reclassifyAt
  split
  · next st => exact h.classifyStrip p _ (h.1.vacant_of_font (by rw [Position.font, st]))
  · next st => exact h.classifyStrip p _ (h.1.vacant_of_font (by rw [Position.font, st]))
  · exact h

theorem reclassify_beside (s : State) : besideStrips (reclassify s) = besideStrips s := by
  unfold reclassify
  induction allPositions generalizing s with
  | nil => rfl
  | cons p rest ih => exact (ih _).trans (reclassifyAt_beside s p)

theorem Carried.reclassify {s : State} (h : Carried s) : Carried (reclassify s) := by
  unfold Machine.reclassify
  induction allPositions generalizing s with
  | nil => exact h
  | cons p rest ih => exact ih (h.reclassifyAt p)

theorem emptyPosition_beside (p : Pos) (s : State) : besideStrips (emptyPosition p s) = besideStrips s := reclassify_beside _

theorem Carried.emptyPosition {p : Pos} {s : State} (vacant : Vacant p s) (h : Carried s) : Carried (emptyPosition p s) := by
  unfold Machine.emptyPosition
  exact Carried.reclassify (h.placed p _ vacant fun _ => rfl)

theorem Sound.of_beside {s t : State} (same : besideStrips t = besideStrips s) (carried : Carried t) (h : Sound s) : Sound t := by
  simp only [besideStrips, Prod.mk.injEq] at same
  obtain ⟨buffer, imaging, film⟩ := same
  exact ⟨carried, h.sequenced.of_same (by rw [sequence, sequence, buffer, imaging, film])⟩

theorem Vacant.of_beside {p : Pos} {s t : State} (same : besideStrips t = besideStrips s) (h : Vacant p s) : Vacant p t := by
  rw [Vacant, show t.buffer = s.buffer from congrArg (·.1) same]
  exact h

/-- A lock failure leaves no element at any position (R90). -/
theorem lockFailure_sound (p : Pos) {s : State} (h : Sound s) : Sound (lockFailure p s) ∧ Vacant p (lockFailure p s) := by
  have rested : Rested (spoil (abandonWork s)) := spoil_rested rfl
  have carried : Carried (spoil (abandonWork s)) := Carried.spoil (carried_imaged.frame s _ rfl h.carried)
  have none_ : live (spoil (abandonWork s)).buffer = [] := live_spoil _
  unfold lockFailure
  generalize spoil (abandonWork s) = t at *
  have vacant : Vacant p t := fun es mem => by
    rw [none_] at mem
    cases mem
  have emptied : Carried (emptyPosition p t) := carried.emptyPosition vacant
  have beside := emptyPosition_beside p t
  generalize emptyPosition p t = u at *
  have left : Vacant p u := vacant.of_beside beside
  simp only [besideStrips, Prod.mk.injEq] at beside
  obtain ⟨buffer, imaging, film⟩ := beside
  refine ⟨⟨carried_imaged.frame u _ rfl emptied, Rested.sequenced (.enterStopped .stripLost ?_)⟩, left⟩
  exact ⟨by rw [buffer]; exact rested.hand, by rw [imaging]; exact rested.move, by rw [film]; exact rested.cut,
    by rw [film]; exact rested.take⟩

theorem takeStripOut_sound (p : Pos) {s : State} (some_ : s.mount.pos[p].st ≠ .empty) (h : Sound s) :
    Sound (takeStripOut p s) ∧ Vacant p (takeStripOut p s) := by
  rw [takeStripOut_eq some_]
  split
  · exact lockFailure_sound p h
  · next free =>
    have vacant : Vacant p s := h.carried.1.vacant_of_pins (Nat.eq_zero_of_not_pos free)
    exact ⟨h.of_beside (emptyPosition_beside p s) (h.carried.emptyPosition vacant),
      vacant.of_beside (emptyPosition_beside p s)⟩

theorem vacant_imaged (p : Pos) : Imaged (Vacant p) where
  frame s t same h := by
    simp only [besideImaging, Prod.mk.injEq] at same
    rw [Vacant, same.2.2.2.1]
    exact h
  clamped j s h := h
  finished s h := by
    cases inHand : imgRecord s with
    | none => rw [finishImaging_none inHand]; exact h
    | some r =>
      rw [Vacant, finishImaging_buffer inHand, live_of_view (imagingView_staying _)]
      exact fun es mem => h es (live_imgDone_sub mem)
  returned s h es mem := h es (live_imgAgain s.buffer ▸ mem)

theorem Vacant.settle {p : Pos} {s : State} (before : Nat) (h : Vacant p s) : Vacant p (settle before s) := by
  have run : Vacant p (settleImaging s) :=
    (vacant_imaged p).runImaging (fun t vacant es mem => vacant es (live_beginImg t.buffer ▸ mem)) _ h
  have view := imagingWork_settle before s
  simp only [imagingWork, Prod.mk.injEq] at view
  rw [Vacant, live_of_view view.2.2.1]
  exact run

theorem stripRemoved_sound (p : Pos) {s : State} (h : Sound s) : Sound (stripRemoved p s) ∧ Vacant p (stripRemoved p s) := by
  by_cases empty : s.mount.pos[p].st = .empty
  · rw [stripRemoved_empty empty]
    exact ⟨h, h.carried.1.vacant_of_font (by rw [Position.font, empty])⟩
  · rw [stripRemoved_taken empty]
    obtain ⟨sound, vacant⟩ := takeStripOut_sound p empty h
    exact ⟨sound.settle _, vacant.settle _⟩

theorem Sound.takeStripIn (p : Pos) (c : Byte) {s : State} (h : Sound s) : Sound (takeStripIn p c s) := by
  obtain ⟨sound, vacant⟩ := stripRemoved_sound p h
  exact sound.of_beside (classifyStrip_beside p _ _) (sound.carried.classifyStrip p _ vacant)

theorem Sound.takeReading (p : Pos) (code : Option Byte) {s : State} (h : Sound s) : Sound (takeReading p code s) := by
  unfold Machine.takeReading
  split
  · exact h.takeStripIn p _
  · exact (stripRemoved_sound p h).1

end Sys2Proof.Proofs

/-! PROOFS. Every step keeps the mount table, the line buffer, the sequencer and the take in agreement (O57). -/

namespace Sys2Proof.Proofs

open Sys2Proof.Machine

/-! ## The whole agreement -/

/-- The engine runs only while the buffer has a place (R97). -/
def EngineRoom (s : State) : Prop := s.engine.st = .running → s.buffer.length < 64

/-- The mount table, the line buffer, the engine, the sequencer and the take agree. -/
structure Whole (s : State) : Prop where
  sound : Sound s
  room : EngineRoom s

/-- What the agreement speaks of. -/
def machinery (s : State) :
    Vector (PosState × Nat) 6 × List Record × Engine ×
      (List Record × ImgState × Option ImgMove × Option (CutStage × CutPurpose) × List Segment) :=
  (places s, s.buffer, s.engine, sequence s)

theorem Sound.of_machinery {s t : State} (same : machinery t = machinery s) (h : Sound s) : Sound t := by
  simp only [machinery, Prod.mk.injEq] at same
  obtain ⟨places_, buffer, -, sequence_⟩ := same
  exact ⟨⟨h.carried.1.of_places places_ (by rw [buffer]) (by rw [buffer]; exact h.carried.1.one),
    by rw [buffer]; exact h.carried.2⟩, h.sequenced.of_same sequence_⟩

theorem Whole.of_same {s t : State} (same : machinery t = machinery s) (h : Whole s) : Whole t := by
  refine ⟨h.sound.of_machinery same, ?_⟩
  simp only [machinery, Prod.mk.injEq] at same
  obtain ⟨-, buffer, engine, -⟩ := same
  rw [EngineRoom, buffer, engine]
  exact h.room

theorem machinery_of_work {s t : State} (same : work t = work s) (engine : t.engine = s.engine) :
    machinery t = machinery s := by
  simp only [machinery, places, sequence, pos_of_work same, buffer_of_work same, imaging_of_work same, film_of_work same,
    engine]

/-- The selection keeps it, and what follows an event brings it about (R58, R97). -/
theorem Whole.trySelect {s : State} (h : Whole s) : Whole (trySelect s) := by
  refine ⟨h.sound.of_work (work_trySelect s), ?_⟩
  rcases trySelect_cases s with is | ⟨j, -, -, is⟩ <;> rw [is]
  · exact h.room
  · intro running
    have entered : entryState j s = .running := running
    rcases entryState_settled j s with ⟨is, -⟩ | ⟨-, room⟩ | ⟨is, -⟩
    · rw [is] at entered; cases entered
    · exact room
    · rw [is] at entered; cases entered

theorem Sound.whole {s : State} (before : Nat) (h : Sound s) : Whole (Machine.settle before s) := by
  refine ⟨h.settle before, fun running => ?_⟩
  obtain ⟨-, -, engine, buffer⟩ := settle_selected before s
  rw [engine] at running
  rw [buffer]
  have settled : EngineSettled (selected s) := trySelect_settled (refreshEngine_settled _)
  rcases settled with is | ⟨is, -⟩ | ⟨-, room⟩ | ⟨is, -⟩
  · rw [is] at running; cases running
  · rw [is] at running; cases running
  · exact room
  · rw [is] at running; cases running

theorem machineSound_iff (s : State) : MachineSound s ↔ MountedOnce s ∧ Whole s := by
  have parts := sequenced_iff s
  constructor
  · rintro ⟨once, pins, ⟨short, room, busy, printing⟩, sequencer, take⟩
    have sequenced := parts.2 ⟨busy, sequencer, take⟩
    obtain ⟨counts, fonts⟩ := (pinsSound_iff s).1 pins
    exact ⟨once, ⟨⟨⟨⟨counts, fonts, sequenced.one⟩, short, printing⟩, sequenced⟩, room⟩⟩
  · rintro ⟨once, ⟨⟨⟨⟨counts, fonts, -⟩, short, printing⟩, sequenced⟩, room⟩⟩
    obtain ⟨busy, sequencer, take⟩ := parts.1 sequenced
    exact ⟨once, (pinsSound_iff s).2 ⟨counts, fonts⟩, ⟨short, room, busy, printing⟩, sequencer, take⟩

namespace Whole

variable {s : State} (h : Whole s)
include h

/-! ## The requests -/

theorem reply (d : Desk) (t : Byte) (c : ReplyCode) (x : List Byte) : Whole (s.reply d t c x) := .of_same (s := s) rfl h
theorem refuse (d : Desk) (t : Byte) (c : ReplyCode) : Whole (refuse d t c s) := h.reply _ _ _ _
theorem modLink (d : Desk) (f : Link → Link) : Whole (s.modLink d f) := .of_same (s := s) rfl h
theorem modJob (j : JobId) (f : Job → Job) : Whole (s.modJob j f) := .of_same (s := s) rfl h
theorem freeJob (j : JobId) : Whole (freeJob j s) := .of_same (s := s) rfl h
theorem stopSilence (d : Desk) : Whole (stopSilence d s) := h.modLink d _

theorem flowIfFreed (before : Nat) : Whole (flowIfFreed before s) := by
  unfold Machine.flowIfFreed flowAfterFreeing
  split
  · split
    · exact .of_same (s := s) rfl h
    · exact h
  · exact h

theorem flowAfterTaking : Whole (flowAfterTaking s) := by
  unfold Machine.flowAfterTaking
  split
  · exact .of_same (s := s) rfl h
  · exact h

theorem flowAfterWrite : Whole (flowAfterWrite s) := by
  unfold Machine.flowAfterWrite
  split
  · exact .of_same (s := s) rfl h
  · split
    · exact .of_same (s := s) rfl h
    · exact h

theorem abandon (d : Desk) (j : JobId) (why : JobReason) : Whole (abandon d j why s) := by
  have freed : Whole ((Machine.freeJob j s).modLink d fun l => { l with silenceTimer := none }) := (h.freeJob j).modLink d _
  unfold Machine.abandon
  dsimp only
  split
  · exact freed.flowIfFreed _
  · exact Whole.flowIfFreed (Whole.modLink freed _ _) _

theorem abandonReceiving (d : Desk) (why : JobReason) : Whole (abandonReceiving d why s) := by
  unfold Machine.abandonReceiving
  split
  · exact h.abandon _ _ _
  · exact h

theorem requestOpen (d : Desk) (payload : List Byte) : Whole (requestOpen d payload s) := by
  unfold Machine.requestOpen
  split
  · exact h.refuse _ _ _
  · split
    · exact h.refuse _ _ _
    · exact h.refuse _ _ _
    · exact .of_same (s := s) rfl h

theorem takeText (d : Desk) (j : JobId) (offset : Nat) (bytes : List Byte) : Whole (takeText d j offset bytes s) := by
  have taken : Whole (appendText j bytes s) := .of_same (s := s) rfl h
  unfold Machine.takeText
  dsimp only
  split
  · exact (h.abandon _ _ _).reply _ _ _ _
  · split
    · exact (h.abandon _ _ _).reply _ _ _ _
    · split
      · exact (h.abandon _ _ _).reply _ _ _ _
      · split
        · exact taken.flowAfterTaking.reply _ _ _ _
        · exact taken.reply _ _ _ _

theorem requestText (d : Desk) (payload : List Byte) : Whole (requestText d payload s) := by
  unfold Machine.requestText
  split
  · split
    · split
      · exact h.takeText _ _ _ _
      · exact h.refuse _ _ _
    · exact h.refuse _ _ _
  · exact h.refuse _ _ _

theorem closeJob (d : Desk) (j : JobId) : Whole (closeJob d j s) := by
  unfold Machine.closeJob
  split
  · exact (h.freeJob j).stopSilence d
  · exact Whole.trySelect (.of_same (s := s) rfl h)

theorem requestClose (d : Desk) (payload : List Byte) : Whole (requestClose d payload s) := by
  unfold Machine.requestClose
  split
  · split
    · exact h.refuse _ _ _
    · split
      · exact (h.closeJob _ _).reply _ _ _ _
      · exact h.refuse _ _ _
  · exact h.refuse _ _ _

theorem requestCancel (d : Desk) (payload : List Byte) : Whole (requestCancel d payload s) := by
  unfold Machine.requestCancel
  split
  · split
    · exact h.refuse _ _ _
    · split
      · exact (h.abandon _ _ _).reply _ _ _ _
      · exact h.refuse _ _ _
      · exact ((h.sound.cancelJob _).whole _).reply _ _ _ _
  · exact h.refuse _ _ _

theorem requestDecide (d : Desk) (payload : List Byte) : Whole (requestDecide d payload s) := by
  unfold Machine.requestDecide decideJob
  split
  · split
    · exact h.refuse _ _ _
    · split
      · exact h.refuse _ _ _
      · split
        · split
          · exact (h.modJob _ _).trySelect.reply _ _ _ _
          · exact h.refuse _ _ _
        · exact h.refuse _ _ _
  · exact h.refuse _ _ _

theorem requestRelease (d : Desk) (payload : List Byte) : Whole (requestRelease d payload s) := by
  have released (j : JobId) : Whole (releaseJob j s) := .of_same (s := s) rfl h
  unfold Machine.requestRelease
  split
  · split
    · exact h.refuse _ _ _
    · split
      · exact (released _).trySelect.reply _ _ _ _
      · exact h.refuse _ _ _
  · exact h.refuse _ _ _

theorem requestTest (d : Desk) (payload : List Byte) : Whole (requestTest d payload s) := by
  have entered (j : JobId) (r : Job) : Whole (enterTail j (s.modJob j fun _ => r)) := .of_same (s := s) rfl h
  unfold Machine.requestTest
  split
  · split
    · exact h.refuse _ _ _
    · split
      · exact h.refuse _ _ _
      · exact h.refuse _ _ _
      · exact (entered _ _).trySelect.reply _ _ _ _
  · exact h.refuse _ _ _

theorem requestQueryJob (d : Desk) (payload : List Byte) : Whole (requestQueryJob d payload s) := by
  unfold Machine.requestQueryJob
  split
  · split
    · exact h.refuse _ _ _
    · split
      · exact h.refuse _ _ _
      · exact h.reply _ _ _ _
  · exact h.refuse _ _ _

theorem requestProbe (d : Desk) (payload : List Byte) : Whole (requestProbe d payload s) := by
  unfold Machine.requestProbe
  split
  · exact h.reply _ _ _ _
  · exact h.refuse _ _ _

theorem requestQueryMachine (d : Desk) (payload : List Byte) : Whole (requestQueryMachine d payload s) := by
  unfold Machine.requestQueryMachine
  split
  · exact (h.modLink d _).reply _ _ _ _
  · exact h.refuse _ _ _

/-- A change of the dictionary. -/
theorem withDict (dict : Dictionary) : Whole { s with dict := dict } := .of_same (s := s) rfl h

theorem requestDictAdd (d : Desk) (payload : List Byte) : Whole (requestDictAdd d payload s) := by
  unfold Machine.requestDictAdd
  split
  · exact h.refuse _ _ _
  · split
    · exact h.refuse _ _ _
    · split
      · exact h.refuse _ _ _
      · dsimp only
        split
        · exact (h.withDict _).reply _ _ _ _
        · split
          · exact h.refuse _ _ _
          · exact (h.withDict _).reply _ _ _ _

theorem requestDictDelete (d : Desk) (payload : List Byte) : Whole (requestDictDelete d payload s) := by
  unfold Machine.requestDictDelete
  split
  · exact h.refuse _ _ _
  · split
    · exact h.refuse _ _ _
    · split
      · exact h.refuse _ _ _
      · dsimp only
        split
        · exact (h.withDict _).reply _ _ _ _
        · exact h.refuse _ _ _

theorem requestDictLookup (d : Desk) (payload : List Byte) : Whole (requestDictLookup d payload s) := by
  unfold Machine.requestDictLookup
  split
  · exact h.refuse _ _ _
  · split
    · exact h.refuse _ _ _
    · split
      · exact h.refuse _ _ _
      · exact h.reply _ _ _ _

theorem requestDirWrite (d : Desk) (payload : List Byte) : Whole (requestDirWrite d payload s) := by
  have replaced (n : Fin 64) (x : Descriptor) : Sound (replaceDescriptor n x s) := by
    have written : Sound { s with dir := { s.dir with desc := put s.dir.desc n x } } := .of_machinery (s := s) rfl h.sound
    have released := written.of_work (work_releaseWaiters n.val _)
    exact released.of_beside (reclassify_beside _) released.carried.reclassify
  unfold Machine.requestDirWrite
  split
  · split
    · exact h.refuse _ _ _
    · split
      · exact h.refuse _ _ _
      · split
        · split
          · exact h.refuse _ _ _
          · exact ((replaced _ _).whole _).reply _ _ _ _
        · exact h.refuse _ _ _
  · exact h.refuse _ _ _

theorem requestWidthWrite (d : Desk) (payload : List Byte) : Whole (requestWidthWrite d payload s) := by
  have written (dir : Directory) : Whole { s with dir := dir } := .of_same (s := s) rfl h
  unfold Machine.requestWidthWrite
  split
  · split
    · split
      · exact h.refuse _ _ _
      · split
        · split
          · exact h.refuse _ _ _
          · split
            · exact h.refuse _ _ _
            · exact (written _).reply _ _ _ _
        · exact h.refuse _ _ _
    · exact h.refuse _ _ _
  · exact h.refuse _ _ _

theorem requestTrimWrite (d : Desk) (payload : List Byte) : Whole (requestTrimWrite d payload s) := by
  have written (t : Trims) (v : Int) : Whole (takeTrim d t v s) := .of_same (s := s) rfl h
  unfold Machine.requestTrimWrite
  split
  · split
    · exact h.refuse _ _ _
    · split
      · exact h.refuse _ _ _
      · split
        · unfold writeLensTrim
          split
          · exact written _ _
          · exact h.refuse _ _ _
        · unfold writeBaselineTrim
          split
          · exact written _ _
          · exact h.refuse _ _ _
        · unfold writeExposureBase
          split
          · exact written _ _
          · exact h.refuse _ _ _
  · exact h.refuse _ _ _

theorem requestSettingWrite (d : Desk) (payload : List Byte) : Whole (requestSettingWrite d payload s) := by
  have written (t : Settings) : Whole { s with settings := t } := .of_same (s := s) rfl h
  unfold Machine.requestSettingWrite
  split
  · split
    · exact h.refuse _ _ _
    · split
      · exact h.refuse _ _ _
      · unfold afterSetting
        dsimp only
        split
        · exact (written _).flowAfterWrite.reply _ _ _ _
        · exact (written _).reply _ _ _ _
  · exact h.refuse _ _ _

theorem requestSave (d : Desk) (payload : List Byte) : Whole (requestSave d payload s) := by
  have saving (x : SerialStore) : Whole { s with serial := x } := .of_same (s := s) rfl h
  unfold Machine.requestSave
  split
  · split
    · exact h.refuse _ _ _
    · split
      · exact h.refuse _ _ _
      · split
        · exact (saving _).reply _ _ _ _
        · exact (saving _).reply _ _ _ _
  · exact h.refuse _ _ _

theorem requestNoticeMask (d : Desk) (payload : List Byte) : Whole (requestNoticeMask d payload s) := by
  unfold Machine.requestNoticeMask
  split
  · exact (h.modLink d _).reply _ _ _ _
  · exact h.refuse _ _ _

theorem askCut : Whole (askCut s) := by
  unfold Machine.askCut
  split
  · exact h
  · exact Sound.whole _ (.of_machinery (s := s) rfl h.sound)

theorem requestCut (d : Desk) (payload : List Byte) : Whole (requestCut d payload s) := by
  unfold Machine.requestCut
  split
  · exact h.askCut.reply _ _ _ _
  · exact h.refuse _ _ _

theorem modProof (f : ProofChannel → ProofChannel) : Whole (s.modProof f) := .of_same (s := s) rfl h

theorem requestProofConfig (d : Desk) (payload : List Byte) : Whole (requestProofConfig d payload s) := by
  unfold Machine.requestProofConfig
  split
  · split
    · exact h.refuse _ _ _
    · exact (h.modProof _).reply _ _ _ _
  · exact h.refuse _ _ _

end Whole

theorem Sound.modProof (f : ProofChannel → ProofChannel) {s : State} (h : Sound s) : Sound (s.modProof f) :=
  .of_machinery (s := s) rfl h

theorem Sound.giveBackPrinting {s : State} (h : Sound s) : Sound (giveBackPrinting s) :=
  ⟨⟨h.carried.1.of_imagingWork (imagingWork_giveBackPrinting s), fits_giveBackPrinting h.carried.2⟩,
    h.sequenced.of_imagingWork (imagingWork_giveBackPrinting s)⟩

theorem Sound.finishProof {s : State} (h : Sound s) : Sound (finishProof s) :=
  ⟨⟨h.carried.1.of_imagingWork (imagingWork_finishProof s), fits_finishProof h.carried.2⟩,
    h.sequenced.of_imagingWork (imagingWork_finishProof s)⟩

theorem Sound.takeAccept {s : State} (h : Sound s) : Sound (takeAccept s) := by
  unfold Machine.takeAccept
  split
  · exact h
  · split
    · exact h.modProof _
    · unfold printed
      split
      · exact h.modProof _
      · exact (h.modProof _).finishProof

namespace Whole

variable {s : State} (h : Whole s)
include h

theorem enableProof : Whole (enableProof s) := by
  unfold Machine.enableProof
  split
  · exact h
  · exact (h.sound.modProof _).whole _

theorem disableProof : Whole (disableProof s) := by
  unfold Machine.disableProof
  split
  · exact (h.sound.modProof _).giveBackPrinting.whole _
  · exact h

theorem requestProofEnable (d : Desk) (payload : List Byte) : Whole (requestProofEnable d payload s) := by
  unfold Machine.requestProofEnable
  split
  · split
    · exact h.refuse _ _ _
    · split
      · exact h.enableProof.reply _ _ _ _
      · exact h.disableProof.reply _ _ _ _
  · exact h.refuse _ _ _

theorem resetLink (d : Desk) : Whole (resetLink d s) := (h.modLink d _).abandonReceiving _ _

theorem requestLinkReset (d : Desk) (payload : List Byte) : Whole (requestLinkReset d payload s) := by
  unfold Machine.requestLinkReset
  split
  · exact (h.resetLink d).reply _ _ _ _
  · exact h.refuse _ _ _

theorem handleRequest (d : Desk) (t : Byte) (payload : List Byte) : Whole (handleRequest d t payload s) := by
  unfold Machine.handleRequest
  split
  · exact h.requestOpen d payload
  · exact h.requestText d payload
  · exact h.requestClose d payload
  · exact h.requestCancel d payload
  · exact h.requestDecide d payload
  · exact h.requestRelease d payload
  · exact h.requestProbe d payload
  · exact h.requestQueryJob d payload
  · exact h.requestQueryMachine d payload
  · exact h.requestDictAdd d payload
  · exact h.requestDictDelete d payload
  · exact h.requestDictLookup d payload
  · exact h.requestDirWrite d payload
  · exact h.requestWidthWrite d payload
  · exact h.requestTrimWrite d payload
  · exact h.requestSettingWrite d payload
  · exact h.requestSave d payload
  · exact h.requestNoticeMask d payload
  · exact h.requestCut d payload
  · exact h.requestTest d payload
  · exact h.requestProofConfig d payload
  · exact h.requestProofEnable d payload
  · exact h.requestLinkReset d payload
  · exact h.refuse _ _ _

end Whole

theorem whole_received : Received Whole where
  link d f _ h := h.modLink d f
  request d t payload _ h := h.handleRequest d t payload

end Sys2Proof.Proofs

/-! PROOFS. The events keep the mount table, the line buffer, the sequencer and the take in agreement (O57). -/

namespace Sys2Proof.Proofs

open Sys2Proof.Machine

/-! ## Moves of the mechanism (R149, R150, R160) -/

theorem Carried.modImg (f : Imaging → Imaging) {s : State} (h : Carried s) : Carried (s.modImg f) :=
  carried_imaged.frame s _ rfl h

theorem Carried.modFilm (f : Film → Film) {s : State} (h : Carried s) : Carried (s.modFilm f) :=
  carried_imaged.frame s _ rfl h

/-- A move ended leaves nothing in flight. -/
theorem Sequenced.moveless {s t : State} (same : sequence t = (hand s.buffer, s.imaging.st, none, s.film.cut, s.film.take))
    (h : Sequenced s) : Sequenced t := by
  obtain ⟨hand_, st, move, cut, take⟩ := sequence_parts same
  have unmoved (m : ImgMove) : t.imaging.move ≠ some m := by rw [move]; exact nofun
  obtain ⟨one, rest, cutting, pending, text, -, -, -, -, short, line⟩ := h
  rw [← hand_] at one rest pending text line
  rw [← st] at rest cutting line
  rw [← cut] at cutting pending text
  rw [← take] at short line
  exact ⟨one, rest, cutting, pending, text, fun p is => absurd is (unmoved _), fun l is => absurd is (unmoved _),
    fun is => absurd is (unmoved _), fun is => is.elim (absurd · (unmoved _)) (absurd · (unmoved _)), short, line⟩

theorem Sound.endMove {s : State} (h : Sound s) : Sound (endMove s) := ⟨h.carried.modImg _, .moveless (s := s) rfl h.sequenced⟩

theorem Sound.startUpMove (m : ImgMove) {s : State} (st : s.imaging.st = .starting) (hand_ : hand s.buffer = [])
    (cut : s.film.cut = none) (kind : (∃ p, m = .turret p) ∨ m = .lensHome ∨ m = .readStrip)
    (take : s.film.take.length ≤ 16) (carried : Carried s) : Sound (startMove m s) := by
  obtain ⟨hand', st', move', cut', take'⟩ := sequence_parts (sequence_startMove m s)
  refine ⟨carried_imaged.startMove m carried, .starting (st'.trans st) (hand'.trans hand_) (cut'.trans cut) ?_ (take' ▸ take)⟩
  rw [move']
  rcases kind with ⟨p, rfl⟩ | rfl | rfl
  · exact .inl ⟨p, rfl⟩
  · exact .inr (.inl rfl)
  · exact .inr (.inr rfl)

theorem Sound.runElement {s : State} (st : s.imaging.st = .setting) (move : s.imaging.move = none) (h : Sound s) :
    Sound (runElement s) := ⟨carried_imaged.runElement h.carried, h.sequenced.runElement st move⟩

/-- A confirm ends the move of its kind (R150). -/
theorem Whole.confirmed (k : ConfirmKind) {s : State} (h : Whole s) : Whole (confirmed k s) := by
  have ended := h.sound.endMove
  unfold Machine.confirmed
  split
  · next p is =>
    refine Sound.whole _ ?_
    unfold turretConfirmed
    dsimp only
    have stands : Sound ((Machine.endMove s).modImg fun i => { i with curPos := some p }) :=
      .of_machinery (s := Machine.endMove s) rfl ended
    split
    · next st =>
      exact .startUpMove _ st (h.sound.sequenced.rest (.inr (.inr st))) (h.sound.sequenced.uncut (by rw [st]; decide))
        (.inr (.inr rfl)) h.sound.sequenced.take stands.carried
    · next st => exact stands.runElement ((h.sound.sequenced.turret p is).resolve_right st) rfl
  · next l is =>
    refine Sound.whole _ (Sound.runElement (h.sound.sequenced.lens l is) rfl ?_)
    exact .of_machinery (s := Machine.endMove s) rfl ended
  · next is =>
    have st := h.sound.sequenced.start (.inl is)
    refine Sound.whole _ ⟨carried_resumeTest ((h.sound.carried.modImg _).modImg _), Rested.sequenced (.resumeTest ?_)⟩
    exact ⟨h.sound.sequenced.rest (.inr (.inr st)), rfl, h.sound.sequenced.uncut (by rw [st]; decide), h.sound.sequenced.take⟩
  · exact h

theorem machinery_resend {m : ImgMove} {s : State} (is : s.imaging.move = some m) (n : Nat) :
    machinery (resend m n s) = machinery s := by
  have outside : (places (startMove m s), (startMove m s).buffer, (startMove m s).engine) = (places s, s.buffer, s.engine) := by
    unfold startMove
    dsimp only
    split <;> rfl
  have moved := sequence_startMove m s
  unfold resend
  rw [← is] at moved
  generalize startMove m s = t at *
  simp only [Prod.mk.injEq] at outside
  obtain ⟨places_, buffer, engine⟩ := outside
  show (places t, t.buffer, t.engine, sequence t) = _
  rw [places_, buffer, engine, moved]
  rfl

theorem Whole.confirmExpired {s : State} (h : Whole s) : Whole (confirmExpired s) := by
  unfold Machine.confirmExpired
  split
  · next m _ is =>
    split
    · exact h
    · split
      · exact h.of_same (machinery_resend is _)
      · split
        · exact h.of_same (machinery_resend is _)
        · exact (h.sound.mechanismFault _).whole _
  · exact h

/-! ## Flashes (R153, R155) -/

theorem machinery_weakTest (s : State) : machinery (weakTest s) = machinery s := by
  unfold weakTest
  dsimp only
  split
  · rfl
  · split
    · split <;> rfl
    · rfl

theorem Sound.flashEnded (r : Nat) {s : State} (st : s.imaging.st = .setting) (move : s.imaging.move = none) (h : Sound s) :
    Sound (flashEnded r s) := by
  unfold Machine.flashEnded
  dsimp only
  have soaked : Sound (s.modImg fun i => { i with soak := i.soak - 1 }) := .of_machinery (s := s) rfl h
  split
  · exact (soaked.mechanismFault .lampFail).of_machinery (machinery_weakTest _)
  · generalize lowRunAfter (s.modImg fun i => { i with soak := i.soak - 1 }) r = run
    let t : State := (s.modImg fun i => { i with soak := i.soak - 1 }).modImg fun i => { i with lowRun := run }
    have counted : Sound t := .of_machinery (s := s) rfl h
    have tested : sequence (weakTest t) = sequence t := congrArg (·.2.2.2) (machinery_weakTest t)
    have parts := sequence_parts (tested.trans rfl)
    refine Sound.runElement (parts.2.1.trans st) (parts.2.2.1.trans move) ?_
    exact .of_machinery (s := weakTest t) rfl (counted.of_machinery (machinery_weakTest t))

theorem Whole.flashDone (r : Nat) {s : State} (h : Whole s) : Whole (flashDone r s) := by
  unfold Machine.flashDone
  split
  · next is =>
    refine Sound.whole _ (Sound.flashEnded r (h.sound.sequenced.flash is) rfl ?_)
    exact .of_machinery (s := endMove s) rfl h.sound.endMove
  · exact h

theorem Whole.flashExpired {s : State} (h : Whole s) : Whole (flashExpired s) := by
  unfold Machine.flashExpired
  split
  · next is => exact Sound.whole _ (Sound.flashEnded 0 (h.sound.sequenced.flash is.1) rfl h.sound.endMove)
  · exact h

/-! ## The scan, strips and CLEAR (R87, R89, R159, R160) -/

theorem Sound.scanOn (p : Pos) {s : State} (st : s.imaging.st = .starting) (h : Sound s) : Sound (scanOn p s) := by
  have none_ := h.sequenced.rest (.inr (.inr st))
  have cut : s.film.cut = none := h.sequenced.uncut (by rw [st]; decide)
  unfold Machine.scanOn
  split
  · exact .startUpMove _ st none_ cut (.inl ⟨_, rfl⟩) h.sequenced.take h.carried
  · have ended : Sound { s with engine := { s.engine with scanEnded := true } } := .of_work (s := s) rfl h
    exact .startUpMove _ (s := { s with engine := { s.engine with scanEnded := true } }.modImg fun i => { i with stage := .lensHome })
      st none_ cut (.inr (.inl rfl)) h.sequenced.take (ended.carried.modImg _)

theorem Whole.stripRead (p : Pos) (code : Option Byte) {s : State} (h : Whole s) : Whole (stripRead p code s) := by
  unfold Machine.stripRead
  split
  · have read : Sound (takeReading p code (endMove s)) := h.sound.endMove.takeReading p code
    dsimp only
    refine Sound.whole _ ?_
    split
    · next st => exact read.scanOn p st
    · exact read
  · exact h

theorem Whole.stripRemoved (p : Pos) {s : State} (h : Whole s) : Whole (stripRemoved p s) := by
  unfold Machine.stripRemoved
  split
  · exact h
  · next some_ => exact (takeStripOut_sound p some_ h.sound).1.whole _

theorem Whole.clearFault {s : State} (h : Whole s) : Whole (clearFault s) := by
  unfold Machine.clearFault
  split
  · next is =>
    have rested := h.sound.sequenced.rested (.inr is.1)
    refine Sound.whole _ ?_
    split
    · unfold restart
      dsimp only
      split
      · exact .startUpMove (s := (s.modImg fun i => { i with st := .starting, stop := .none }).modImg
            fun i => { i with stage := .scan }) _ rfl rested.hand rested.cut (.inl ⟨0, rfl⟩) rested.take
          ((h.sound.carried.modImg _).modImg _)
      · exact .startUpMove (s := s.modImg fun i => { i with st := .starting, stop := .none }) _ rfl rested.hand rested.cut
          (.inr (.inl rfl)) rested.take (h.sound.carried.modImg _)
    · exact ⟨carried_resumeTest (h.sound.carried.modImg _),
        Rested.sequenced (.resumeTest ⟨rested.hand, rfl, rested.cut, rested.take⟩)⟩
  · exact h

/-! ## The film (R163 to R175) -/

/-- The cut has reached the blade (R173). -/
theorem Sequenced.atBlade {s t : State} {why : CutPurpose} (stage : s.film.cut = some (.advancingToCut, why))
    (same : sequence t = (hand s.buffer, s.imaging.st, s.imaging.move, some (.blade, why), s.film.take)) (h : Sequenced s) :
    Sequenced t := by
  obtain ⟨hand_, st, move, cut, take⟩ := sequence_parts same
  obtain ⟨one, rest, cutting, pending, text, turret, lens, flash, start, short, line⟩ := h
  rw [stage] at cutting pending text
  rw [← hand_] at one rest pending text line
  rw [← st] at rest cutting turret lens flash start line
  rw [← move] at turret lens flash start
  rw [← take] at short line
  refine ⟨one, rest, fun _ => cutting rfl, fun stage is => ?_, fun stage w is kind => ?_, turret, lens, flash, start, short, line⟩
  · rw [cut, Option.some.injEq, Prod.mk.injEq] at is
    exact pending _ (by rw [is.2])
  · rw [cut, Option.some.injEq, Prod.mk.injEq] at is
    exact text _ w (by rw [is.2]) kind

theorem Sound.moveEnded {s : State} (h : Sound s) : Sound (moveEnded s) := by
  have ended : Sound (s.modFilm fun f => { f with move := none }) := .of_machinery (s := s) rfl h
  unfold Machine.moveEnded
  dsimp only
  split
  · next why stage =>
    refine ⟨?_, h.sequenced.atBlade stage rfl⟩
    exact carried_imaged.frame s _ rfl h.carried
  · split
    · next st =>
      refine ⟨carried_imaged.beginSetting ended.carried, .beginSetting ⟨h.sequenced.one, ?_, ?_, h.sequenced.take⟩
        (h.sequenced.line (.inl st))⟩
      · exact h.sequenced.unmoved (by rw [st]; decide)
      · exact h.sequenced.uncut (by rw [st]; decide)
    · exact ended

theorem Whole.moveDone {s : State} (h : Whole s) : Whole (moveDone s) := by
  unfold Machine.moveDone
  split
  · exact h
  · exact h.sound.moveEnded.whole _

theorem work_deliver (s : State) : work (deliver s) = work (s.modFilm fun f => { f with take := [], pendingCut := false }) := by
  unfold deliver
  dsimp only
  rw [foldl_work work_deliveredTo]
  have counted : work (s.film.take.foldl countDelivered s) = work s := foldl_work work_countDelivered _ _
  generalize s.film.take.foldl countDelivered s = t at counted
  simp only [work, Prod.mk.injEq] at counted ⊢
  obtain ⟨pos, flashSeq, buffer, imaging, film, proof⟩ := counted
  exact ⟨pos, flashSeq, buffer, imaging, congrArg (fun f : Film => { f with take := [], pendingCut := false }) film, proof⟩

theorem lineInHand_none {s : State} (held : LineHeld s) (none_ : lineInHand s = none) : hand s.buffer = [] := by
  unfold lineInHand at none_
  split at none_
  · cases none_
  · next notLine =>
    cases inHand : imgRecord s with
    | none => exact hand_none_of_imgRecord inHand
    | some r =>
      obtain ⟨x, is⟩ := Option.isSome_iff_exists.1 (held _ (imgRecord_hand inHand))
      have text : r.text = some x := is
      obtain ⟨j, text', img, proof⟩ := r
      cases text
      exact absurd inHand (notLine _ _ _ _)

/-- The cut reported to what asked for it (R168, R173). -/
theorem Sound.cutReported {s : State} {why : CutPurpose} (cut : s.film.cut = some (.blade, why)) (h : Sound s) :
    Sound (cutReported why (cutEnded s)) := by
  have same : work (cutEnded s) = work (s.modFilm fun f =>
      { f with cut := none, cutTimer := none, cutpos := f.p, take := [], pendingCut := false }) := work_deliver _
  have carried : Carried (cutEnded s) := Carried.of_work same (h.carried.modFilm _)
  have st : s.imaging.st = .cutting := h.sequenced.cutting (by rw [cut]; rfl)
  have move : s.imaging.move = none := h.sequenced.unmoved (by rw [st]; decide)
  have hand_ : hand (cutEnded s).buffer = hand s.buffer := by rw [buffer_of_work same]; rfl
  have move' : (cutEnded s).imaging.move = none := by rw [imaging_of_work same]; exact move
  have cut' : (cutEnded s).film.cut = none := by rw [film_of_work same]; rfl
  have take' : (cutEnded s).film.take = [] := by rw [film_of_work same]; rfl
  have pending := h.sequenced.pending .blade
  have text := h.sequenced.text .blade why cut
  have one := h.sequenced.one
  rw [← hand_] at pending text one
  generalize cutEnded s = t at *
  have short : t.film.take.length ≤ 16 := by rw [take']; exact Nat.zero_le 16
  have rested (none_ : hand t.buffer = []) : Sound (t.modImg fun i => { i with st := .idle }) :=
    ⟨carried.modImg _, Rested.sequenced ⟨none_, move', cut', short⟩⟩
  have taken : LineTaken (t.modImg fun i => { i with st := .advancing }) := ⟨one, move', cut', short⟩
  have room : HasRoom (t.modImg fun i => { i with st := .advancing }) := fun r _ x _ => by
    refine .inl ?_
    show t.film.take.length < 16
    rw [take']
    exact Nat.zero_lt_succ 15
  cases why with
  | pending => exact rested (pending cut)
  | record =>
    obtain ⟨none_, -, finished, uncut, take⟩ := sequence_parts (finishImaging_sequence t)
    refine ⟨carried_imaged.frame (finishImaging t) _ rfl (carried_imaged.finished t carried), Rested.sequenced ?_⟩
    exact ⟨none_, finished.trans move', uncut.trans cut', take ▸ short⟩
  | segments =>
    have held : LineHeld (t.modImg fun i => { i with st := .advancing }) := text (.inl rfl)
    unfold Machine.cutReported
    dsimp only
    split
    · exact ⟨carried_imaged.testLength _ _ (carried.modImg _), .testLength rfl taken held room _ _⟩
    · next none_ => exact rested (lineInHand_none held none_)
  | length =>
    have held : LineHeld (t.modImg fun i => { i with st := .advancing }) := text (.inr rfl)
    unfold Machine.cutReported
    dsimp only
    split
    · exact ⟨carried_imaged.moveLine _ _ (carried.modImg _), .moveLine rfl taken room _ _⟩
    · next none_ => exact rested (lineInHand_none held none_)
  | filmOut => exact ⟨carried_imaged.stopFilmOut (carried_imaged.frame t _ rfl carried), .stopFilmOut cut' short⟩

theorem Whole.cutDone {s : State} (h : Whole s) : Whole (cutDone s) := by
  unfold Machine.cutDone
  split
  · next why cut => exact (h.sound.cutReported cut).whole _
  · exact h

theorem Whole.cutExpired {s : State} (h : Whole s) : Whole (cutExpired s) := by
  unfold Machine.cutExpired
  split
  · exact (h.sound.cutFailed _).whole _
  · exact h

theorem Whole.switchEvent (f : Film → Film) (keeps : ∀ x, (f x).cut = x.cut ∧ (f x).take = x.take) {s : State} (h : Whole s) :
    Whole (switchEvent f s) := by
  have switched : Sound (s.modFilm f) := by
    refine .of_machinery (s := s) ?_ h.sound
    obtain ⟨cut, take⟩ := keeps s.film
    show (places s, s.buffer, s.engine, hand s.buffer, s.imaging.st, s.imaging.move, (f s.film).cut, (f s.film).take) = _
    rw [cut, take]
    rfl
  unfold Machine.switchEvent
  split
  · exact h
  · refine Sound.whole _ ?_
    unfold afterSwitch
    split
    · split
      · exact switched.filmLost _
      · exact switched.spoil.filmLost _
    · split
      · exact switched.filmChanged
      · exact switched

theorem Sound.unloadFilm {s : State} (h : Sound s) : Sound (unloadFilm s) := by
  have unloaded : Sound (s.modFilm fun f => { f with loaded := false, length := 0, p := 0, hw := 0, cutpos := 0 }) :=
    .of_machinery (s := s) rfl h
  unfold Machine.unloadFilm
  dsimp only
  split
  · exact unloaded.spoil.filmLost _
  · exact unloaded.filmLost _

theorem Whole.magazineOut {s : State} (h : Whole s) : Whole (magazineOut s) := by
  unfold Machine.magazineOut
  split
  · exact h.sound.unloadFilm.whole _
  · exact h

theorem Whole.magazineLoaded (feet : Nat) {s : State} (h : Whole s) : Whole (magazineLoaded feet s) := by
  have loaded (t : State) (h : Sound t) : Sound (loadFilm feet t) := Sound.filmChanged (.of_machinery (s := t) rfl h)
  unfold Machine.magazineLoaded
  refine Sound.whole _ (loaded _ ?_)
  split
  · exact h.sound.unloadFilm
  · exact h.sound

/-! ## Every event, every step -/

theorem Whole.takeBuild {s : State} (h : Whole s) : Whole (takeBuild s) := by
  unfold Machine.takeBuild
  split
  · next running =>
    split
    · exact (h.sound.buildOnce _ (h.room running)).whole _
    · exact h
  · exact h

theorem Whole.heldExpired (j : JobId) {s : State} (h : Whole s) : Whole (heldExpired j s) := by
  unfold Machine.heldExpired
  split
  · exact (h.modJob _ _).trySelect
  · exact h

theorem Whole.endSave {s : State} (h : Whole s) : Whole (endSave s) := by
  have saved (x : SerialStore) : Whole { s with serial := x } := .of_same (s := s) rfl h
  unfold Machine.endSave
  split
  · exact h
  · exact saved _
  · exact saved _

theorem Whole.breakLink (d : Desk) {s : State} (h : Whole s) : Whole (breakLink d s) := by
  unfold Machine.breakLink
  split
  · exact h
  · exact (h.modLink d _).resetLink d

theorem Whole.holdExpired (d : Desk) {s : State} (h : Whole s) : Whole (holdExpired d s) := by
  unfold Machine.holdExpired
  split
  · exact h
  · split
    · exact h.modLink d _
    · exact h.modLink d _

theorem Whole.silenceExpired (d : Desk) {s : State} (h : Whole s) : Whole (silenceExpired d s) := by
  unfold Machine.silenceExpired
  split
  · exact h
  · exact (h.stopSilence d).abandonReceiving _ _

theorem Whole.printerStops (p : Printer) {s : State} (h : Whole s) : Whole (printerStops p s) :=
  (h.sound.modProof _).giveBackPrinting.whole _

theorem Whole.accepted {s : State} (h : Whole s) : Whole (accepted s) := by
  unfold Machine.accepted
  split
  · exact h
  · exact h.sound.takeAccept.whole _

theorem Whole.frameSent (d : Desk) {s : State} (h : Whole s) : Whole (frameSent d s) := by
  unfold Machine.frameSent
  split
  · exact h.modLink d _
  · exact h

theorem Whole.event {c : Instr} {s t : State} (isE : isEvent c = true) (run : Machine.exec c s = .next t) (h : Whole s) :
    Whole t := by
  cases c
  case saveComplete => exact Host.Outcome.next.inj run ▸ h.endSave
  case frameSent d => exact Host.Outcome.next.inj run ▸ h.frameSent d
  case breakCondition d => exact Host.Outcome.next.inj run ▸ h.breakLink d
  case holdTimerExpiry d => exact Host.Outcome.next.inj run ▸ h.holdExpired d
  case silenceTimerExpiry d => exact Host.Outcome.next.inj run ▸ h.silenceExpired d
  case heldTimeout j => exact Host.Outcome.next.inj run ▸ h.heldExpired j
  case confirmTimerExpiry => exact Host.Outcome.next.inj run ▸ h.confirmExpired
  case flashTimeout => exact Host.Outcome.next.inj run ▸ h.flashExpired
  case cutTimerExpiry => exact Host.Outcome.next.inj run ▸ h.cutExpired
  case lineBuild => exact Host.Outcome.next.inj run ▸ h.takeBuild
  case confirm k => exact Host.Outcome.next.inj run ▸ h.confirmed k
  case flashDone r => exact Host.Outcome.next.inj run ▸ h.flashDone _
  case stripCode p c => exact Host.Outcome.next.inj run ▸ h.stripRead p c
  case stripIn p c => exact Host.Outcome.next.inj run ▸ (h.sound.takeStripIn p c).whole _
  case stripOut p => exact Host.Outcome.next.inj run ▸ h.stripRemoved p
  case lampChanged => exact Host.Outcome.next.inj run ▸ Whole.of_same (s := s) (t := lampChanged s) rfl h
  case clear => exact Host.Outcome.next.inj run ▸ h.clearFault
  case moveDone => exact Host.Outcome.next.inj run ▸ h.moveDone
  case cutDone => exact Host.Outcome.next.inj run ▸ h.cutDone
  case cutButton => exact Host.Outcome.next.inj run ▸ h.askCut
  case magazineLoaded n => exact Host.Outcome.next.inj run ▸ h.magazineLoaded _
  case magazineOut => exact Host.Outcome.next.inj run ▸ h.magazineOut
  case takeUpIn => exact Host.Outcome.next.inj run ▸ h.switchEvent (fun f => { f with takeUp := true }) fun _ => ⟨rfl, rfl⟩
  case takeUpOut => exact Host.Outcome.next.inj run ▸ h.switchEvent (fun f => { f with takeUp := false }) fun _ => ⟨rfl, rfl⟩
  case doorOpen => exact Host.Outcome.next.inj run ▸ h.switchEvent (fun f => { f with doorClosed := false }) fun _ => ⟨rfl, rfl⟩
  case doorClosed => exact Host.Outcome.next.inj run ▸ h.switchEvent (fun f => { f with doorClosed := true }) fun _ => ⟨rfl, rfl⟩
  case ready => exact Host.Outcome.next.inj run ▸ (h.sound.modProof _).whole _
  case paperOut => exact Host.Outcome.next.inj run ▸ h.printerStops _
  case fault => exact Host.Outcome.next.inj run ▸ h.printerStops _
  case accept => exact Host.Outcome.next.inj run ▸ h.accepted
  case returnToMarking d => exact Host.Outcome.next.inj run ▸ h.modLink d _
  all_goals exact absurd isE Bool.false_ne_true

/-- Start-up begins in agreement: nothing pinned, in the buffer or in the take, and TURRET 1 in flight (R187). -/
theorem whole_start (s : State) : Whole (startUp s) := by
  have start : MountTable.start.pos = (startUp s).mount.pos := rfl
  refine ⟨⟨⟨⟨fun p => ?_, nofun, Nat.zero_le _⟩, Nat.zero_le _, Nat.zero_le _⟩, ?_⟩, nofun⟩
  · rw [← start]
    simp [MountTable.start]
    rfl
  · exact .starting rfl rfl rfl (.inl ⟨0, rfl⟩) (Nat.zero_le _)

theorem Whole.step {s t : State} (run : Machine.step s = .next t) (h : Whole s) : Whole t := by
  have exec {u : State} {c : Instr} (run : Machine.exec c u = .next t) (h : Whole u) : Whole t :=
    whole_received.exec (whole_start u) (fun isE run => h.event isE run) run h
  unfold Machine.step at run
  split at run
  · exact Host.Outcome.next.inj run ▸ h
  · exact exec run (.of_same (s := s) rfl h)

/-- Settles O57: what the mount table, the buffer, the engine, the sequencer and the take say of one another is kept by each
operation of the sequencer, and brought about again where an event ends. -/
theorem bytesCanonicalKept : Obligations.BytesCanonicalKept := by
  intro s t run
  refine ⟨bytesCanonical_commissioned.step run, fun sound => ?_⟩
  obtain ⟨once, whole⟩ := (machineSound_iff s).1 sound
  exact (machineSound_iff t).2 ⟨mountedOnce_lasting.step run once, whole.step run⟩

end Sys2Proof.Proofs

/-! PROOFS. The line's move, the cuts and the delivery (O53). -/

namespace Sys2Proof.Proofs

open Sys2Proof.Machine

/-! ## Delivery (R174) -/

theorem mem_distinct {α : Type} [DecidableEq α] (a : α) (as : List α) : a ∈ distinct as ↔ a ∈ as := by
  induction as with
  | nil => exact Iff.rfl
  | cons b rest ih =>
    unfold distinct
    by_cases same : a = b
    · simp [same]
    · simp [same, ih]

theorem distinct_nodup {α : Type} [DecidableEq α] (as : List α) : (distinct as).Nodup := by
  induction as with
  | nil => exact .nil
  | cons b rest ih => exact List.nodup_cons.2 ⟨by simp, ih.filter _⟩

/-- The lines of a take that are of a job. -/
def linesOf (take : List Segment) (j : JobId) : Nat :=
  ((take.filter fun g => decide (g.job = j)).map fun g => g.last - g.first + 1).sum

theorem countDelivered_other {g : Segment} {j : JobId} (other : g.job ≠ j) (s : State) :
    (countDelivered s g).jobs[j] = s.jobs[j] := put_other _ _ _ _ other

/-- The lines counted, saturating at 65,535 (R70). -/
theorem countDelivered_foldl (take : List Segment) (s : State) (j : JobId) :
    (take.foldl countDelivered s).jobs[j] =
      if ∃ g ∈ take, g.job = j then
        { s.jobs[j] with delivered := min 65535 (s.jobs[j].delivered + linesOf take j) }
      else s.jobs[j] := by
  induction take generalizing s with
  | nil => rfl
  | cons g rest ih =>
    rw [List.foldl_cons, ih]
    by_cases mine : g.job = j
    · subst mine
      have counted : (countDelivered s g).jobs[g.job] =
          { s.jobs[g.job] with delivered := min 65535 (s.jobs[g.job].delivered + g.lines) } := put_same _ _ _
      have sum : linesOf (g :: rest) g.job = g.lines + linesOf rest g.job := by simp [linesOf, Segment.lines]
      rw [if_pos (⟨g, List.mem_cons_self, rfl⟩ : ∃ x ∈ g :: rest, x.job = g.job), counted, sum]
      split
      · refine congrArg (fun n => { s.jobs[g.job] with delivered := n }) ?_
        dsimp only
        omega
      · next none_ =>
        have zero : linesOf rest g.job = 0 := by
          have empty : (rest.filter fun x => decide (x.job = g.job)) = [] :=
            List.filter_eq_nil_iff.2 fun x mem is => none_ ⟨x, mem, of_decide_eq_true is⟩
          rw [linesOf, empty]
          rfl
        rw [zero]
        rfl
    · have sum : linesOf (g :: rest) j = linesOf rest j := by simp [linesOf, mine]
      rw [countDelivered_other mine, sum]
      refine if_congr ?_ rfl rfl
      simp [mine]

/-- The decisions of the lines delivered dropped (R174). -/
def undecided (r : Job) : Job := { r with decisions := r.decisions.filter fun d => decide (r.delivered < d.line) }

theorem deliveredTo_eq (s : State) (j : JobId) : deliveredTo s j = checkJob j (s.modJob j undecided) := rfl

theorem deliveredTo_other {j k : JobId} (other : j ≠ k) (s : State) : (deliveredTo s j).jobs[k] = s.jobs[k] := by
  rw [deliveredTo_eq, checkJob_other j k _ other]
  exact put_other _ _ _ _ other

theorem deliveredTo_foldl {js : List JobId} (once : js.Nodup) (s : State) (j : JobId) :
    (j ∉ js → (js.foldl deliveredTo s).jobs[j] = s.jobs[j]) ∧
    (j ∈ js → ∃ t : State, t.buffer = s.buffer ∧ t.film = s.film ∧ t.jobs[j] = s.jobs[j] ∧
      (js.foldl deliveredTo s).jobs[j] = (deliveredTo t j).jobs[j]) := by
  induction js generalizing s with
  | nil => exact ⟨fun _ => rfl, nofun⟩
  | cons k rest ih =>
    obtain ⟨fresh, once⟩ := List.nodup_cons.1 once
    obtain ⟨other, mine⟩ := ih once (deliveredTo s k)
    have same := work_deliveredTo s k
    refine ⟨fun not_ => ?_, fun mem => ?_⟩
    · rw [List.mem_cons, not_or] at not_
      exact (other not_.2).trans (deliveredTo_other (Ne.symm not_.1) s)
    · by_cases here : j = k
      · subst here
        exact ⟨s, rfl, rfl, rfl, other fresh⟩
      · obtain ⟨t, buffer, film, jobs, is⟩ := mine ((List.mem_cons.1 mem).resolve_left here)
        exact ⟨t, buffer.trans (buffer_of_work same), film.trans (film_of_work same),
          jobs.trans (deliveredTo_other (Ne.symm here) s), is⟩

/-- A job that its delivery completes, or that has nothing left, is FREE; any other keeps its record (R71, R75). -/
theorem deliveredTo_job {s : State} {j : JobId} (take : s.film.take = []) :
    (s.jobs[j].state = .cancelled ∨ s.jobs[j].state = .faulted ∨
        (s.jobs[j].state = .composed ∧ s.jobs[j].imagingDue = true ∧ s.jobs[j].delivered = s.jobs[j].composed) →
      (∀ b ∈ s.buffer, b.job ≠ j) → (deliveredTo s j).jobs[j] = Job.free) ∧
    (¬ (∀ b ∈ s.buffer, b.job ≠ j) ∨
        (s.jobs[j].state ≠ .composed ∧ s.jobs[j].state ≠ .cancelled ∧ s.jobs[j].state ≠ .faulted) ∨
        (s.jobs[j].state = .composed ∧ s.jobs[j].imagingDue = true ∧ s.jobs[j].delivered ≠ s.jobs[j].composed) →
      (deliveredTo s j).jobs[j] = undecided s.jobs[j]) := by
  rw [deliveredTo_eq]
  let t : State := s.modJob j undecided
  have rec_ : t.jobs[j] = undecided s.jobs[j] := put_same _ _ _
  have state : t.jobs[j].state = s.jobs[j].state := by rw [rec_]; rfl
  have due : t.jobs[j].imagingDue = s.jobs[j].imagingDue := by rw [rec_]; rfl
  have counts : t.jobs[j].delivered = s.jobs[j].delivered ∧ t.jobs[j].composed = s.jobs[j].composed := by
    rw [rec_]
    exact ⟨rfl, rfl⟩
  have empty : inTake j t = false := (inTake_false j t).2 fun g mem => by
    have mem' : g ∈ s.film.take := mem
    rw [take] at mem'
    cases mem'
  have freed (u : State) : (freeJob j u).jobs[j] = Job.free := by
    rw [freeJob_jobs]
    exact put_same _ _ _
  change (_ → _ → (checkJob j t).jobs[j] = _) ∧ (_ → (checkJob j t).jobs[j] = _)
  refine ⟨fun ends gone => ?_, fun stays => ?_⟩
  · rcases ends with is | is | ⟨is, imaging, all⟩
    · rw [checkJob_stopped (.inl (state.trans is)), (inBuffer_false j t).2 gone, empty]
      exact freed t
    · rw [checkJob_stopped (.inr (state.trans is)), (inBuffer_false j t).2 gone, empty]
      exact freed t
    · have complete : isComplete j t = true := by
        rw [isComplete_iff, due, if_pos imaging, counts.1, counts.2]
        exact ⟨gone, all⟩
      rw [checkJob_composed (state.trans is), if_pos complete, due, if_pos imaging]
      exact freed _
  · rw [← rec_]
    have kept (left : ¬ ∀ b ∈ s.buffer, b.job ≠ j) : checkJob j t = t := by
      have there : inBuffer j t = true := by
        rw [← Bool.not_eq_false, inBuffer_false]
        exact left
      by_cases active : t.jobs[j].state ≠ .composed ∧ t.jobs[j].state ≠ .cancelled ∧ t.jobs[j].state ≠ .faulted
      · exact checkJob_active j t active
      · by_cases composed : t.jobs[j].state = .composed
        · have notComplete : isComplete j t ≠ true := by
            rw [Ne, isComplete_iff]
            exact fun h => left h.1
          rw [checkJob_composed composed, if_neg notComplete]
        · have stopped : t.jobs[j].state = .cancelled ∨ t.jobs[j].state = .faulted := by
            by_contra neither
            exact active ⟨composed, fun h => neither (.inl h), fun h => neither (.inr h)⟩
          rw [checkJob_stopped stopped, there]
          rfl
    rcases stays with left | active | ⟨is, imaging, short⟩
    · rw [kept left]
    · rw [checkJob_active j t (by rw [state]; exact active)]
    · have notComplete : isComplete j t ≠ true := by
        rw [Ne, isComplete_iff, due, if_pos imaging, counts.1, counts.2]
        exact fun h => short h.2
      rw [checkJob_composed (state.trans is), if_neg notComplete]

/-- The delivery, job by job. -/
theorem deliver_job (s : State) (j : JobId) :
    ((¬ ∃ g ∈ s.film.take, g.job = j) → (deliver s).jobs[j] = s.jobs[j]) ∧
    ((∃ g ∈ s.film.take, g.job = j) → ∃ t : State, t.buffer = s.buffer ∧ t.film.take = [] ∧
      t.jobs[j] = { s.jobs[j] with delivered := min 65535 (s.jobs[j].delivered + linesOf s.film.take j) } ∧
      (deliver s).jobs[j] = (deliveredTo t j).jobs[j]) := by
  let u : State := (s.film.take.foldl countDelivered s).modFilm fun f => { f with take := [], pendingCut := false }
  have rec_ : u.jobs[j] = _ := countDelivered_foldl s.film.take s j
  have listed : j ∈ distinct (s.film.take.map (·.job)) ↔ ∃ g ∈ s.film.take, g.job = j := by
    rw [mem_distinct, List.mem_map]
  obtain ⟨other, mine⟩ := deliveredTo_foldl (distinct_nodup (s.film.take.map (·.job))) u j
  refine ⟨fun none_ => ?_, fun some_ => ?_⟩
  · rw [if_neg none_] at rec_
    exact (other (mt listed.1 none_)).trans rec_
  · rw [if_pos some_] at rec_
    obtain ⟨t, buffer, film, jobs, is⟩ := mine (listed.2 some_)
    have counted : work (s.film.take.foldl countDelivered s) = work s := foldl_work work_countDelivered _ _
    exact ⟨t, buffer.trans (show (s.film.take.foldl countDelivered s).buffer = s.buffer from buffer_of_work counted), by rw [film]; rfl, jobs.trans rec_, is⟩

/-! ## The line's move (R167 to R170) -/

theorem extendsTake_false (take : List Segment) (j : JobId) (k : Nat) :
    extendsTake take j k = false ↔ ∀ g, take.getLast? = some g → g.job ≠ j ∨ g.last + 1 ≠ k := by
  unfold extendsTake
  cases take.getLast? with
  | none => simp
  | some g =>
    simp only [Option.some.injEq, forall_eq', Bool.and_eq_false_iff, decide_eq_false_iff_not]

theorem moveTarget_cast (s : State) (l : Int) :
    (moveTarget s l : Int) = if 0 ≤ l then s.film.p + l else max (s.film.p + l) (reverseFloor s : Nat) := by
  unfold moveTarget
  split <;> omega

/-- The work on a line just given (R146 to R148). -/
theorem beginRecord_line (j : JobId) (x : TextLine) (img : ImgField) (proof : ProofField) (s : State) :
    beginRecord ⟨j, some x, img, proof⟩ s =
      testSegments j x { s with imaging := { s.imaging with latched := s.imaging.written, st := .advancing } } := rfl

/-- ADVANCE by `n`, and the low test (R163, R169). -/
theorem sendAdvance_eq (n : Nat) (s : State) :
    sendAdvance n s =
      let u : State :=
        { s with film := { s.film with
                   p := s.film.p + n, hw := max s.film.hw (s.film.p + n), move := some (.advance n) }
                 port := s.port ++ [.advance n] }
      let left := if s.film.loaded then s.film.length - max s.film.hw (s.film.p + n) else 0
      if left < s.settings.lowThreshold * 8640 ∧ s.film.lowSent = false then
        { u with film := { u.film with lowSent := true } }.noticeAll .filmLow (left / 8640)
      else u := rfl

theorem cutFor_eq (why : CutPurpose) (s : State) :
    cutFor why s =
      sendAdvance (min (s.film.hw + s.settings.cutMargin) s.film.length - s.film.p)
        { s with film := { s.film with cut := some (.advancingToCut, why) }
                 imaging := { s.imaging with st := .cutting } } := rfl

theorem sendReverse_eq (n : Nat) (s : State) :
    sendReverse n s =
      { s with film := { s.film with p := s.film.p - n, move := some (.reverse n) }, port := s.port ++ [.reverse n] } := rfl

section

variable {s : State} {j : JobId} {l : Int}

theorem testSegments_full {x : TextLine} (full : s.film.take.length = 16)
    (other : ∀ g, s.film.take.getLast? = some g → g.job ≠ j ∨ g.last + 1 ≠ x.line) :
    testSegments j x s = cutFor .segments s := if_pos ⟨full, (extendsTake_false _ _ _).2 other⟩

theorem testSegments_room {x : TextLine}
    (room : ¬ (s.film.take.length = 16 ∧ ∀ g, s.film.take.getLast? = some g → g.job ≠ j ∨ g.last + 1 ≠ x.line)) :
    testSegments j x s = testLength j x.move s :=
  if_neg fun h => room ⟨h.1, (extendsTake_false _ _ _).1 h.2⟩

theorem testLength_long (some_ : s.film.take ≠ [])
    (long : (s.settings.maxTake : Int) < max (s.film.hw : Int) (moveTarget s l) - s.film.cutpos) :
    testLength j l s = cutFor .length s := by
  refine if_pos ⟨?_, by rwa [← Bool.not_eq_true, List.isEmpty_iff]⟩
  rw [← Nat.cast_max] at long
  omega

theorem testLength_short
    (short : ¬ (s.film.take ≠ [] ∧ (s.settings.maxTake : Int) < max (s.film.hw : Int) (moveTarget s l) - s.film.cutpos)) :
    testLength j l s = moveLine j l s := by
  refine if_neg fun h => short ⟨by rw [Ne, ← List.isEmpty_iff, h.2]; exact Bool.false_ne_true, ?_⟩
  have long := h.1
  rw [← Nat.cast_max]
  omega

theorem moveLine_spent (spent : (s.film.length : Int) - max (s.film.hw : Int) (moveTarget s l) < s.settings.cutReserve) :
    moveLine j l s = if s.film.take.isEmpty then stopFilmOut (noteFilmOut s) else cutFor .filmOut s := by
  refine if_pos ?_
  rw [← Nat.cast_max] at spent
  omega

theorem moveLine_left (left : ¬ (s.film.length : Int) - max (s.film.hw : Int) (moveTarget s l) < s.settings.cutReserve) :
    moveLine j l s =
      if 0 < l then sendAdvance l.toNat s else if l = 0 then beginSetting s else reverseLine j l s := by
  refine if_neg fun h => left ?_
  rw [← Nat.cast_max]
  omega

end

/-! ## The ends of moves and cuts (R163, R173) -/

theorem moveDone_taken {s : State} {m : FilmMove} (move : s.film.move = some m) :
    moveDone s = settle s.store.freeCount (moveEnded s) := by
  unfold moveDone
  generalize settle s.store.freeCount (moveEnded s) = t
  rw [move]

theorem moveEnded_blade {s : State} {why : CutPurpose} (cut : s.film.cut = some (.advancingToCut, why)) :
    moveEnded s =
      { s with film := { s.film with move := none, cut := some (.blade, why), cutTimer := some 2000 }
               port := s.port ++ [.blade] } := by
  unfold moveEnded
  rw [cut]
  rfl

theorem moveEnded_line {s : State} (cut : s.film.cut = none) (st : s.imaging.st = .advancing) :
    moveEnded s =
      runElement { s with film := { s.film with move := none }, imaging := { s.imaging with st := .setting, elem := 0 } } := by
  unfold moveEnded
  rw [cut]
  dsimp only
  rw [if_pos st]
  rfl

theorem cutDone_taken {s : State} {why : CutPurpose} (cut : s.film.cut = some (.blade, why)) :
    cutDone s = settle s.store.freeCount (cutReported why (cutEnded s)) := by
  unfold cutDone
  generalize cutEnded s = t
  rw [cut]

theorem cutDone_ignored {s : State} (none_ : ∀ why, s.film.cut ≠ some (.blade, why)) : cutDone s = s := by
  unfold cutDone
  split
  · next why cut => exact absurd cut (none_ why)
  · rfl

theorem cutExpired_taken {s : State} {why : CutPurpose} (cut : s.film.cut = some (.blade, why))
    (timer : s.film.cutTimer.isSome = true) : cutExpired s = settle s.store.freeCount (cutFailed why s) := by
  obtain ⟨n, is⟩ := Option.isSome_iff_exists.1 timer
  unfold cutExpired
  generalize settle s.store.freeCount = follow
  rw [is, cut]

theorem lineInHand_eq {s : State} {j : JobId} {x : TextLine} {img : ImgField} {proof : ProofField}
    (inHand : imgRecord s = some ⟨j, some x, img, proof⟩) : lineInHand s = some (j, x) := by
  rw [lineInHand, inHand]

theorem finishImaging_imaging (s : State) : (finishImaging s).imaging = s.imaging := by
  cases inHand : imgRecord s with
  | none => rw [finishImaging_none inHand]
  | some r =>
    obtain ⟨pos, port, is⟩ := unpinRecord_frame r s
    rw [imaging_of_work (work_of_outside (finishImaging_outside inHand)), is]

/-- Settles O53: each event by the move or the cut in flight, the line's move by its tests in their order, and the delivery
job by job. -/
theorem filmMovesAndCuts : Obligations.FilmMovesAndCuts := by
  refine ⟨fun s => ⟨fun none_ => ?_, fun m why move cut => ?_, fun m move cut st => ?_, fun none_ => ?_, fun why cut => ?_,
    fun why cut timer => ?_⟩, fun j x img proof s => ?_, fun s => ⟨rfl, ?_, ?_, ?_⟩, fun s => ?_, fun s => ⟨rfl, ?_⟩⟩
  case refine_1 =>
    have ignored : moveDone s = s := by rw [moveDone, none_]
    exact congrArg Host.Outcome.next ignored
  case refine_2 => exact congrArg Host.Outcome.next ((moveDone_taken move).trans (congrArg _ (moveEnded_blade cut)))
  case refine_3 => exact congrArg Host.Outcome.next ((moveDone_taken move).trans (congrArg _ (moveEnded_line cut st)))
  case refine_4 => exact congrArg Host.Outcome.next (cutDone_ignored none_)
  case refine_5 => exact congrArg Host.Outcome.next (cutDone_taken cut)
  case refine_6 => exact congrArg Host.Outcome.next (cutExpired_taken cut timer)
  case refine_7 =>
    intro f l floor target far begun advanced reversed cut setting clamped full long spent begin
    have is : begin = testSegments j x begun := beginRecord_line j x img proof s
    have to_ : (moveTarget begun l : Int) = target := moveTarget_cast begun l
    have toLength (notFull : ¬ full) : begin = testLength j l begun := is.trans (testSegments_room notFull)
    have toMove (notFull : ¬ full) (notLong : ¬ long) : begin = moveLine j l begun := by
      refine (toLength notFull).trans (testLength_short ?_)
      rw [to_]
      exact notLong
    have moves (notFull : ¬ full) (notLong : ¬ long) (left : ¬ spent) :
        begin = if 0 < l then sendAdvance l.toNat begun else if l = 0 then beginSetting begun else reverseLine j l begun := by
      refine (toMove notFull notLong).trans (moveLine_left ?_)
      rw [to_]
      exact left
    have ends (notFull : ¬ full) (notLong : ¬ long) (gone : spent) :
        begin = if begun.film.take.isEmpty then stopFilmOut (noteFilmOut begun) else cutFor .filmOut begun := by
      refine (toMove notFull notLong).trans (moveLine_spent ?_)
      rw [to_]
      exact gone
    have reverses (notFull : ¬ full) (notLong : ¬ long) (left : ¬ spent) (back : l < 0) : begin = reverseLine j l begun := by
      rw [moves notFull notLong left, if_neg (by omega), if_neg (by omega)]
    have roomy (empty : f.take = []) : ¬ full := fun isFull => by
      have sixteen := isFull.1
      rw [empty] at sixteen
      cases sixteen
    have unlatched (latched : s.imaging.latched = s.imaging.written) :
        begun = { s with imaging := { s.imaging with st := .advancing } } := by
      show ({ s with imaging := { s.imaging with latched := s.imaging.written, st := .advancing } } : State) = _
      rw [← latched]
    refine ⟨fun isFull => ?_, fun notFull isLong => ?_, fun notFull notLong gone some_ => ?_,
      fun notFull notLong gone none_ => ?_, fun notFull notLong left => ⟨fun ahead => ?_, fun still => ?_,
        fun back clear_ => ?_, fun back short above => ?_, fun back short below => ?_⟩, fun empty inHand latched => ⟨?_, ?_⟩⟩
    · exact is.trans (testSegments_full isFull.1 isFull.2)
    · refine (toLength notFull).trans (testLength_long isLong.1 ?_)
      rw [to_]
      exact isLong.2
    · rw [ends notFull notLong gone, if_neg (by rw [List.isEmpty_iff]; exact some_)]
      rfl
    · rw [ends notFull notLong gone, if_pos (List.isEmpty_iff.2 none_)]
      rfl
    · rw [moves notFull notLong left, if_pos ahead]
      rfl
    · rw [moves notFull notLong left, if_neg (by omega), if_pos still]
      rfl
    · rw [reverses notFull notLong left back]
      exact if_pos clear_
    · rw [reverses notFull notLong left back]
      exact (if_neg (not_le.2 short)).trans (if_neg (not_le.2 above))
    · rw [reverses notFull notLong left back]
      exact (if_neg (not_le.2 short)).trans (if_pos below)
    · rw [toLength (roomy empty), unlatched latched]
      unfold cutReported
      dsimp only
      rw [lineInHand_eq inHand]
      rfl
    · rw [toMove (roomy empty) fun isLong => isLong.1 empty, unlatched latched]
      unfold cutReported
      dsimp only
      rw [lineInHand_eq inHand]
      rfl
  case refine_8 => exact congrArg (fun i : Imaging => { i with st := .idle }) (finishImaging_imaging s)
  case refine_9 => exact (hand_nil _).1 (sequence_parts (finishImaging_sequence s)).1
  case refine_10 => rfl
  case refine_11 =>
    intro t lines count counted gone imaging
    have work_ := work_deliver s
    have buffer_ : t.buffer = s.buffer := (buffer_of_work work_).trans rfl
    refine ⟨film_of_work work_, buffer_, fun j => (deliver_job s j).1, fun j mine => ?_⟩
    obtain ⟨u, buffer, take, rec_, is⟩ := (deliver_job s j).2 mine
    obtain ⟨frees, keeps⟩ := deliveredTo_job (s := u) (j := j) take
    rw [buffer, rec_] at frees keeps
    have delivered : t.jobs[j] = (deliveredTo u j).jobs[j] := is
    rw [delivered]
    exact ⟨frees, keeps⟩
  case refine_12 => rw [noteFilmOut, noticeAll_eq] <;> rfl

end Sys2Proof.Proofs

/-! PROOFS. A spoil, its flush and its reruns, job by job (R76, R143, R144, R175): lemmas for O54. -/

namespace Sys2Proof.Proofs

open Sys2Proof.Machine

/-! ## Notice flags stay set (R37) -/

/-- The SPOILED flag of a link is set. -/
def Flagged (d : Desk) (s : State) : Prop := s.links[d].flags.getLsbD 6 = true

theorem notice_flags (k : NoticeKind) (job : Option JobId) (detail : Nat) (l : Link) :
    (Link.notice k job detail l).flags = setNotice l.flags k := by
  have kick (l : Link) : l.kick.flags = l.flags := by
    rcases l.kick_cases with ⟨-, e⟩ | ⟨_, -, -, e⟩ | ⟨_, _, -, -, -, e⟩ <;> rw [e]
  unfold Link.notice
  dsimp only
  split
  · exact kick _
  · rfl

theorem Flagged.notice {d : Desk} {s : State} (e : Desk) (k : NoticeKind) (j : JobId) (n : Nat) (h : Flagged d s) :
    Flagged d (s.notice e k j n) := by
  by_cases same : e = d
  · subst same
    have link : (s.notice e k j n).links[e] = Link.notice k (some j) n s.links[e] := put_same _ _ _
    rw [Flagged, link, notice_flags, setNotice_eq, BitVec.getLsbD_or, h, Bool.true_or]
  · have link : (s.notice e k j n).links[d] = s.links[d] := put_other _ _ _ _ same
    rwa [Flagged, link]

/-- SPOILED raised sets its flag. -/
theorem flagged_spoiled (d : Desk) (j : JobId) (n : Nat) (s : State) : Flagged d (s.notice d .spoiled j n) := by
  have link : (s.notice d .spoiled j n).links[d] = Link.notice .spoiled (some j) n s.links[d] := put_same _ _ _
  rw [Flagged, link, notice_flags, setNotice_eq, BitVec.getLsbD_or]
  have bit : (1#11 <<< NoticeKind.spoiled.bit).getLsbD 6 = true := by decide
  rw [bit, Bool.or_true]

/-! ## The rewind of a job (R76) -/

/-- A job leaves the waiters and the engine. -/
def laidDown (j : JobId) (s : State) : State :=
  let t := if s.jobs[j].state = .waitMount then leaveWaiters j s else s
  if s.jobs[j].state = .composing then idleEngine t else t

/-- A job goes back to a line, at the tail of the rerun list. -/
def putBack (e : JobId × Nat × Context) (s : State) : State :=
  { s with
    jobs := put s.jobs e.1
      { s.jobs[e.1] with
        state := .queued, saved := some e.2.2, composed := e.2.1 - 1, exposed := s.jobs[e.1].delivered, held := none
        heldTimer := none, waitedFont := none, reason := .none }
    queue := { s.queue with rerun := s.queue.rerun.filter (· ≠ e.1) ++ [e.1] } }

theorem rewind_ends {e : JobId × Nat × Context} {s : State}
    (ends : s.jobs[e.1].state = .cancelled ∨ s.jobs[e.1].state = .free) : rewind e s = checkJob e.1 s := if_pos ends

theorem rewind_back {e : JobId × Nat × Context} {s : State}
    (lives : ¬ (s.jobs[e.1].state = .cancelled ∨ s.jobs[e.1].state = .free)) :
    rewind e s = (putBack e (laidDown e.1 s)).notice s.jobs[e.1].owner .spoiled e.1 e.2.1 := if_neg lives

theorem laidDown_job (j : JobId) (s : State) :
    (laidDown j s).jobs[j] = s.jobs[j] ∨ (laidDown j s).jobs[j] = { s.jobs[j] with waitedFont := none } := by
  have same (t : State) : (if s.jobs[j].state = .composing then idleEngine t else t).jobs = t.jobs := by
    split <;> rfl
  unfold laidDown
  dsimp only
  rw [same]
  split
  · obtain ⟨_, _, _, is⟩ := leaveWaiters_frame j s
    rw [is]
    exact .inr (put_same _ _ _)
  · exact .inl rfl

/-! ## What a change of another job leaves of a job -/

/-- The record of a job, its place in the rerun list and the flags set are as they were. -/
structure Untouched (j : JobId) (s t : State) : Prop where
  job : t.jobs[j] = s.jobs[j]
  rerun : j ∈ t.queue.rerun ↔ j ∈ s.queue.rerun
  flags : ∀ d, Flagged d s → Flagged d t

namespace Untouched

variable {j : JobId} {s t u : State}

theorem refl (s : State) : Untouched j s s := ⟨rfl, .rfl, fun _ => id⟩

theorem trans (first : Untouched j s t) (then_ : Untouched j t u) : Untouched j s u :=
  ⟨then_.job.trans first.job, then_.rerun.trans first.rerun, fun d h => then_.flags d (first.flags d h)⟩

/-- A change of other fields. -/
theorem of_same (same : (t.jobs, t.queue, t.links) = (s.jobs, s.queue, s.links)) : Untouched j s t := by
  simp only [Prod.mk.injEq] at same
  obtain ⟨jobs, queue, links⟩ := same
  exact ⟨by rw [jobs], by rw [queue], fun d h => by rw [Flagged, links]; exact h⟩

/-- The mount table is none of it. -/
theorem withMount {m : MountTable} (h : Untouched j { s with mount := m } u) : Untouched j s u :=
  Untouched.trans (t := { s with mount := m }) (of_same rfl) h

theorem foldl {α : Type} {f : State → α → State} {as : List α} (each : ∀ a ∈ as, ∀ s, Untouched j s (f s a)) (s : State) :
    Untouched j s (as.foldl f s) := by
  induction as generalizing s with
  | nil => exact .refl s
  | cons a rest ih =>
    exact (each a List.mem_cons_self s).trans (ih (fun b mem => each b (List.mem_cons_of_mem _ mem)) _)

theorem notice (d : Desk) (k : NoticeKind) (i : JobId) (n : Nat) (s : State) : Untouched j s (s.notice d k i n) :=
  ⟨rfl, .rfl, fun _ => .notice d k i n⟩

theorem modJob {k : JobId} (other : k ≠ j) (f : Job → Job) (s : State) : Untouched j s (s.modJob k f) :=
  ⟨put_other _ _ _ _ other, .rfl, fun _ => id⟩

theorem freeJob {k : JobId} (other : k ≠ j) (s : State) : Untouched j s (freeJob k s) := by
  refine ⟨by rw [freeJob_jobs]; exact put_other _ _ _ _ other, ?_, fun _ => id⟩
  show j ∈ s.queue.rerun.filter _ ↔ _
  simp [Ne.symm other]

theorem checkJob {k : JobId} (other : k ≠ j) (s : State) : Untouched j s (checkJob k s) := by
  rcases checkJob_cases k s with is | is | ⟨_, _, is⟩ | is <;> rw [is]
  · exact .refl s
  · exact freeJob other s
  · exact (notice _ _ _ _ s).trans (freeJob other _)
  · exact (notice _ _ _ _ s).trans (modJob other _ _)

theorem promoteWaiting (n : Nat) (s : State) : Untouched j s (promoteWaiting n s) := by
  induction n generalizing s with
  | zero => exact .refl s
  | succ n ih =>
    unfold Machine.promoteWaiting
    split
    · exact .refl s
    · split
      · exact .refl s
      · dsimp only
        split
        · next f _ _ =>
          refine Untouched.trans ?_ (ih _)
          exact withMount (foldl (f := fun t k => noticeMountWait f k t) (fun _ _ t => notice _ _ _ _ t) _)
        · exact .refl s

theorem leaveWaiters {k : JobId} (other : k ≠ j) (s : State) : Untouched j s (leaveWaiters k s) := by
  unfold Machine.leaveWaiters
  dsimp only
  refine Untouched.trans ?_ (promoteWaiting _ _)
  exact withMount (modJob other _ _)

theorem laidDown {k : JobId} (other : k ≠ j) (s : State) : Untouched j s (laidDown k s) := by
  have left : Untouched j s (if s.jobs[k].state = .waitMount then Machine.leaveWaiters k s else s) := by
    split
    · exact leaveWaiters other s
    · exact .refl s
  unfold Proofs.laidDown
  dsimp only
  split
  · exact left.trans (of_same rfl)
  · exact left

theorem putBack {e : JobId × Nat × Context} (other : e.1 ≠ j) (s : State) : Untouched j s (putBack e s) := by
  refine ⟨put_other _ _ _ _ other, ?_, fun _ => id⟩
  show j ∈ s.queue.rerun.filter _ ++ [e.1] ↔ j ∈ s.queue.rerun
  simp [Ne.symm other]

theorem rewind {e : JobId × Nat × Context} (other : e.1 ≠ j) (s : State) : Untouched j s (rewind e s) := by
  by_cases ends : s.jobs[e.1].state = .cancelled ∨ s.jobs[e.1].state = .free
  · rw [rewind_ends ends]
    exact checkJob other s
  · rw [rewind_back ends]
    exact ((laidDown other s).trans (putBack other _)).trans (notice _ _ _ _ _)

theorem handOver {e : JobId × Nat × Context} (other : e.1 ≠ j) (s : State) : Untouched j s (handOver s e) :=
  Untouched.trans (t := { s with buffer := s.buffer.filter fun r => !r.lostBy e }) (of_same rfl) (rewind other _)

theorem stopAtBoundary (s : State) (still : s.jobs[j].state ≠ .composing) : Untouched j s (stopAtBoundary s) := by
  unfold Machine.stopAtBoundary
  split
  · next k composing =>
    have other : k ≠ j := fun same => still (same ▸ ((composingJob_some k s).1 composing).1)
    exact (modJob other (fun r => { r with state := .queued }) s).trans (of_same rfl)
  · exact .refl s

theorem refreshEngine (s : State) : Untouched j s (refreshEngine s) := by
  obtain ⟨st, is⟩ := refreshEngine_frame s
  rw [is]
  exact of_same rfl

theorem selectJob {k : JobId} (other : k ≠ j) (s : State) : Untouched j s (selectJob k s) := by
  refine ⟨put_other _ _ _ _ other, ?_, fun _ => id⟩
  show j ∈ s.queue.rerun.filter _ ↔ _
  simp [Ne.symm other]

/-- The checks of jobs, where a check of the job itself changes nothing. -/
theorem checkJobs (js : List JobId) (s : State)
    (still : j ∈ js → ∀ u : State, u.jobs[j] = s.jobs[j] → u.buffer = s.buffer → Machine.checkJob j u = u) :
    Untouched j s (checkJobs js s) := by
  unfold Machine.checkJobs
  induction js generalizing s with
  | nil => exact .refl s
  | cons k rest ih =>
    have one : Untouched j s (Machine.checkJob k s) := by
      by_cases mine : k = j
      · subst mine
        rw [still List.mem_cons_self s rfl rfl]
        exact .refl s
      · exact checkJob mine s
    refine one.trans (ih _ fun mem u job buffer => still (List.mem_cons_of_mem _ mem) u (job.trans one.job) ?_)
    exact buffer.trans (buffer_of_work (work_checkJob k s))

end Untouched

theorem nextJob_queued {s : State} {j : JobId} (next : nextJob s = some j) : s.jobs[j].state = .queued := by
  rw [nextJob_eq] at next
  have mem := List.mem_of_mem_head? next
  simp only [tiers, List.mem_append, List.mem_filter, Bool.and_eq_true, decide_eq_true_eq] at mem
  rcases mem with ((((mem | mem) | mem) | mem) | mem) | mem <;> exact mem.2.1

/-- The selection takes a QUEUED job or none (R58). -/
theorem trySelect_untouched {j : JobId} {s : State} (still : s.jobs[j].state ≠ .queued) : Untouched j s (trySelect s) := by
  rcases trySelect_cases s with is | ⟨k, -, next, is⟩ <;> rw [is]
  · exact .refl s
  · refine .selectJob (fun same => ?_) s
    subst same
    exact still (nextJob_queued next)

/-- A QUEUED job may be selected. -/
theorem trySelect_queued {j : JobId} {s : State} (queued : s.jobs[j].state = .queued) :
    Untouched j s (trySelect s) ∨
    ((∀ d, Flagged d s → Flagged d (trySelect s)) ∧ j ∉ (trySelect s).queue.rerun ∧
      (trySelect s).jobs[j] = { s.jobs[j] with state := .composing, saved := some (s.jobs[j].saved.getD (freshContext s)) }) := by
  rcases trySelect_cases s with is | ⟨k, -, next, is⟩ <;> rw [is]
  · exact .inl (.refl s)
  · by_cases mine : k = j
    · subst mine
      refine .inr ⟨fun _ => id, ?_, put_same _ _ _⟩
      show k ∉ s.queue.rerun.filter _
      simp
    · exact .inl (.selectJob mine s)

/-! ## The lost lines of a job (R144) -/

/-- The first lost line of a job stands once in the list of the jobs' first ones. -/
theorem firstLost_split {lost : List (JobId × Nat × Context)} {j : JobId} {e : JobId × Nat × Context}
    (first : lost.find? (fun e => decide (e.1 = j)) = some e) :
    ∃ before after, firstLost lost = before ++ e :: after ∧ e.1 = j ∧
      (∀ x ∈ before, x.1 ≠ j) ∧ ∀ x ∈ after, x.1 ≠ j := by
  induction lost with
  | nil => cases first
  | cons x rest ih =>
    unfold firstLost
    by_cases mine : x.1 = j
    · rw [List.find?_cons_of_pos (by rw [decide_eq_true_iff]; exact mine), Option.some.injEq] at first
      subst first
      refine ⟨[], _, rfl, mine, nofun, fun y mem => ?_⟩
      simp only [List.mem_filter, decide_eq_true_eq] at mem
      exact mine ▸ mem.2
    · rw [List.find?_cons_of_neg (by rw [decide_eq_true_iff]; exact mine)] at first
      obtain ⟨before, after, is, of_, other, other'⟩ := ih first
      refine ⟨x :: before.filter fun y => y.1 ≠ x.1, after.filter fun y => y.1 ≠ x.1, ?_, of_, ?_, ?_⟩
      · rw [is, List.filter_append, List.filter_cons_of_pos (by rw [of_]; simpa using Ne.symm mine)]
        rfl
      · exact List.forall_mem_cons.2 ⟨mine, fun y mem => other y (List.mem_of_mem_filter mem)⟩
      · exact fun y mem => other' y (List.mem_of_mem_filter mem)

theorem mem_firstLost {lost : List (JobId × Nat × Context)} {x : JobId × Nat × Context} (mem : x ∈ firstLost lost) :
    x ∈ lost := by
  induction lost with
  | nil => cases mem
  | cons y rest ih =>
    rcases List.mem_cons.1 mem with here | there
    · exact here ▸ List.mem_cons_self
    · exact List.mem_cons_of_mem _ (ih (List.mem_of_mem_filter there))

theorem lostLines_eq (segs : List Segment) (bs : List Record) :
    lostLines segs bs = segs.map (fun g => (g.job, g.first, g.restart)) ++
      (bs.filter Record.imgLive).filterMap fun r => r.text.map fun x => (r.job, x.line, x.start) := by
  rw [lostLines, List.filterMap_filter]

end Sys2Proof.Proofs

/-! PROOFS. The film and the gate (O54). -/

namespace Sys2Proof.Proofs

open Sys2Proof.Machine

/-! ## The parts of a flush (R143, R144, R76) -/

/-- The buffer as a flush leaves it before the jobs are handed over, nothing pinned. -/
def flushStart (s : State) : State := { unpinned s with buffer := (unpinned s).buffer.filterMap Record.flushed }

/-- What follows the hand-overs. -/
def flushEnd (touched : List JobId) (s : State) : State :=
  checkJobs touched (trySelect (refreshEngine (stopAtBoundary s)))

theorem flush_eq (segs : List Segment) (s : State) :
    flush segs s =
      flushEnd (segs.map (·.job) ++ (s.buffer.filter (·.imgLive)).map (·.job))
        ((firstLost (lostLines segs s.buffer)).foldl handOver (flushStart s)) := rfl

theorem flushStart_untouched (j : JobId) (s : State) : Untouched j s (flushStart s) := by
  obtain ⟨pos, port, is⟩ := unpinRecords_frame (s.buffer.filter (·.imgLive)) s
  rw [flushStart, unpinned, is]
  exact .of_same rfl

theorem flushStart_film (s : State) : (flushStart s).film = s.film := by
  obtain ⟨pos, port, is⟩ := unpinRecords_frame (s.buffer.filter (·.imgLive)) s
  rw [flushStart, unpinned, is]

theorem flushStart_buffer (s : State) : (flushStart s).buffer = s.buffer.filterMap Record.flushed := by
  obtain ⟨pos, port, is⟩ := unpinRecords_frame (s.buffer.filter (·.imgLive)) s
  rw [flushStart, unpinned, is]

theorem work_flushEnd (touched : List JobId) (s : State) : work (flushEnd touched s) = work s := by
  rw [flushEnd, work_checkJobs, work_trySelect, work_refreshEngine, work_stopAtBoundary]

/-- A job that neither composes nor waits to be selected. -/
theorem flushEnd_untouched {j : JobId} (touched : List JobId) {s : State} (idle : s.jobs[j].state ≠ .composing)
    (unqueued : s.jobs[j].state ≠ .queued)
    (still : j ∈ touched → ∀ u : State, u.jobs[j] = s.jobs[j] → u.buffer = s.buffer → checkJob j u = u) :
    Untouched j s (flushEnd touched s) := by
  have first : Untouched j s (refreshEngine (stopAtBoundary s)) := (Untouched.stopAtBoundary s idle).trans (.refreshEngine _)
  have second : Untouched j s (trySelect (refreshEngine (stopAtBoundary s))) :=
    first.trans (trySelect_untouched (by rw [first.job]; exact unqueued))
  have same : work (trySelect (refreshEngine (stopAtBoundary s))) = work s := by
    rw [work_trySelect, work_refreshEngine, work_stopAtBoundary]
  exact second.trans (.checkJobs _ _ fun mem u job buffer =>
    still mem u (job.trans second.job) (buffer.trans (buffer_of_work same)))

/-- A job that is QUEUED or COMPOSING is in neither state that a check ends. -/
theorem checkJob_running {j : JobId} {u : State} (runs : u.jobs[j].state = .queued ∨ u.jobs[j].state = .composing) :
    checkJob j u = u :=
  checkJob_active j u (by rcases runs with is | is <;> rw [is] <;> decide)

/-- A QUEUED job stays in the lists, or is selected. -/
theorem flushEnd_queued {j : JobId} (touched : List JobId) {s : State} (queued : s.jobs[j].state = .queued) :
    Untouched j s (flushEnd touched s) ∨
    ((∀ d, Flagged d s → Flagged d (flushEnd touched s)) ∧ j ∉ (flushEnd touched s).queue.rerun ∧
      ∃ fresh, (flushEnd touched s).jobs[j] =
        { s.jobs[j] with state := .composing, saved := some (s.jobs[j].saved.getD fresh) }) := by
  have first : Untouched j s (refreshEngine (stopAtBoundary s)) :=
    (Untouched.stopAtBoundary s (by rw [queued]; decide)).trans (.refreshEngine _)
  have checks (t : State) (runs : t.jobs[j].state = .queued ∨ t.jobs[j].state = .composing) :
      Untouched j t (checkJobs touched t) := .checkJobs _ _ fun _ u job _ => checkJob_running (by rwa [job])
  rcases trySelect_queued (first.job ▸ queued) with left | ⟨flags, gone, job⟩
  · exact .inl ((first.trans left).trans (checks _ (.inl (by rw [left.job, first.job, queued]))))
  · have checked := checks (trySelect (refreshEngine (stopAtBoundary s))) (.inr (by rw [job]))
    rw [first.job] at job
    exact .inr ⟨fun d h => checked.flags d (flags d (first.flags d h)), fun mem => gone (checked.rerun.1 mem),
      _, checked.job.trans job⟩

/-- A COMPOSING job stays so, becomes QUEUED or is selected again. -/
theorem flushEnd_composing {j : JobId} (touched : List JobId) {s : State} (composing : s.jobs[j].state = .composing) :
    ((flushEnd touched s).jobs[j].state = .queued ∨ (flushEnd touched s).jobs[j].state = .composing) ∧
    (s.jobs[j].saved.isSome = true → (flushEnd touched s).jobs[j] =
      { s.jobs[j] with state := (flushEnd touched s).jobs[j].state }) := by
  have checks (t : State) (runs : t.jobs[j].state = .queued ∨ t.jobs[j].state = .composing) :
      (checkJobs touched t).jobs[j] = t.jobs[j] :=
    (Untouched.checkJobs _ _ fun _ u job _ => checkJob_running (by rwa [job])).job
  have stops : (stopAtBoundary s).jobs[j] = s.jobs[j] ∨ (stopAtBoundary s).jobs[j] = { s.jobs[j] with state := .queued } := by
    unfold stopAtBoundary
    split
    · next k _ =>
      by_cases mine : k = j
      · subst mine
        exact .inr (put_same _ _ _)
      · exact .inl (put_other _ _ _ _ mine)
    · exact .inl rfl
  have passes : (refreshEngine (stopAtBoundary s)).jobs[j] = (stopAtBoundary s).jobs[j] := by rw [refreshEngine_jobs]
  rcases stops with is | is
  · have same : (trySelect (refreshEngine (stopAtBoundary s))).jobs[j] = s.jobs[j] :=
      (trySelect_untouched (by rw [passes, is, composing]; decide)).job.trans (passes.trans is)
    have ends := (checks _ (.inr (by rw [same, composing]))).trans same
    refine ⟨.inr (by rw [flushEnd, ends, composing]), fun _ => by rw [flushEnd, ends]⟩
  · have queued : (refreshEngine (stopAtBoundary s)).jobs[j].state = .queued := by rw [passes, is]
    rcases trySelect_queued queued with left | ⟨-, -, job⟩
    · have same := left.job.trans (passes.trans is)
      have ends := (checks _ (.inl (by rw [same]))).trans same
      refine ⟨.inl (by rw [flushEnd, ends]), fun _ => by rw [flushEnd, ends]⟩
    · rw [passes, is] at job
      have ends := (checks _ (.inr (by rw [job]))).trans job
      refine ⟨.inr (by rw [flushEnd, ends]), fun some_ => ?_⟩
      obtain ⟨ctx, saved⟩ := Option.isSome_iff_exists.1 some_
      rw [flushEnd, ends, saved]
      generalize s.jobs[j] = r at saved ⊢
      cases r
      cases saved
      rfl

theorem handOvers_untouched {j : JobId} {lost : List (JobId × Nat × Context)} (other : ∀ x ∈ lost, x.1 ≠ j) (s : State) :
    Untouched j s (lost.foldl handOver s) := .foldl (fun x mem s => .handOver (other x mem) s) s

theorem lostBy_other {x : JobId × Nat × Context} {r : Record} (other : x.1 ≠ r.job) : r.lostBy x = false := by
  rw [Record.lostBy, decide_eq_false (Ne.symm other), Bool.false_and, Bool.false_and]

/-- A flush, seen from a job that loses a line: what comes before its rewind leaves it as it is, and its records that
stay are those the flush leaves. -/
theorem flush_lost {segs : List Segment} {s : State} {j : JobId} {e : JobId × Nat × Context} (take : s.film.take = [])
    (first : (lostLines segs s.buffer).find? (fun e => decide (e.1 = j)) = some e) :
    e.1 = j ∧ e ∈ firstLost (lostLines segs s.buffer) ∧
    ∃ a c : State, a.jobs[j] = s.jobs[j] ∧ a.film.take = [] ∧
      (∀ r : Record, r.job = j → (r ∈ a.buffer ↔ r ∈ (flush segs s).buffer)) ∧
      Untouched j (rewind e a) c ∧ c.buffer = (flush segs s).buffer ∧
      flush segs s = flushEnd (segs.map (·.job) ++ (s.buffer.filter (·.imgLive)).map (·.job)) c := by
  obtain ⟨before, after, is, mine, other, other'⟩ := firstLost_split first
  refine ⟨mine, by rw [is]; simp, ?_⟩
  let b : State := before.foldl handOver (flushStart s)
  let a : State := { b with buffer := b.buffer.filter fun r => !r.lostBy e }
  let c : State := after.foldl handOver (rewind e a)
  have ends : flush segs s = flushEnd (segs.map (·.job) ++ (s.buffer.filter (·.imgLive)).map (·.job)) c := by
    rw [flush_eq, is, List.foldl_append]
    rfl
  have start : work b = work { flushStart s with buffer := (flushStart s).buffer.filter fun r => before.all fun e => !r.lostBy e } :=
    work_handOvers _ _
  have film : a.film = s.film := (film_of_work start).trans (flushStart_film s)
  have touched : Untouched j s b := (flushStart_untouched j s).trans (handOvers_untouched other _)
  have buffer : (flush segs s).buffer = c.buffer := by
    rw [ends]
    exact buffer_of_work (work_flushEnd _ c)
  refine ⟨a, c, touched.job, by rw [film, take], fun r of_ => ?_, handOvers_untouched other' _, buffer.symm, ends⟩
  have passes (lost : List (JobId × Nat × Context)) (others : ∀ x ∈ lost, x.1 ≠ j) :
      (lost.all fun x => !r.lostBy x) = true := by
    rw [List.all_eq_true]
    intro x mem
    rw [lostBy_other (of_ ▸ others x mem)]
    rfl
  rw [flush_buffer, flushedBuffer, is]
  show r ∈ b.buffer.filter _ ↔ _
  rw [buffer_of_work start, flushStart_buffer]
  simp only [List.mem_filter, List.all_append, List.all_cons, passes before other, passes after other', Bool.true_and,
    Bool.and_true, and_true]

/-- A CANCELLED job that loses a line is freed once it has no record (R75, R76). -/
theorem flush_cancelled {segs : List Segment} {s : State} {j : JobId} {e : JobId × Nat × Context} (take : s.film.take = [])
    (first : (lostLines segs s.buffer).find? (fun e => decide (e.1 = j)) = some e) (cancelled : s.jobs[j].state = .cancelled) :
    ((∀ b ∈ (flush segs s).buffer, b.job ≠ j) → (flush segs s).jobs[j] = Job.free) ∧
    ((∃ b ∈ (flush segs s).buffer, b.job = j) → (flush segs s).jobs[j] = s.jobs[j]) := by
  obtain ⟨rfl, -, a, c, job, empty, records, after, buffer, ends⟩ := flush_lost take first
  have state : a.jobs[e.1].state = .cancelled := by rw [job, cancelled]
  have none_ (u : State) (is : u.film.take = []) : inTake e.1 u = false := (inTake_false e.1 u).2 fun g mem => by
    rw [is] at mem
    cases mem
  rw [rewind_ends (.inl state), checkJob_stopped (.inl state), none_ a empty, Bool.or_false] at after
  refine ⟨fun gone => ?_, fun ⟨r, mem, of_⟩ => ?_⟩
  · have out : inBuffer e.1 a = false := (inBuffer_false e.1 a).2 fun r mem of_ => gone r ((records r of_).1 mem) of_
    rw [out, if_neg Bool.false_ne_true] at after
    have free : c.jobs[e.1] = Job.free := by
      rw [after.job, freeJob_jobs]
      exact put_same _ _ _
    rw [ends, (flushEnd_untouched _ (by rw [free]; decide) (by rw [free]; decide) fun _ u is _ => ?_).job, free]
    exact checkJob_active e.1 u (by rw [is, free]; decide)
  · have there : inBuffer e.1 a = true := by
      rw [← Bool.not_eq_false, inBuffer_false]
      exact fun none_ => none_ r ((records r of_).2 mem) of_
    rw [there, if_pos rfl] at after
    have kept : c.jobs[e.1] = s.jobs[e.1] := after.job.trans job
    rw [ends, (flushEnd_untouched _ (by rw [kept, cancelled]; decide) (by rw [kept, cancelled]; decide) fun _ u is same => ?_).job,
      kept]
    have stands : inBuffer e.1 u = true := by
      rw [← Bool.not_eq_false, inBuffer_false]
      rw [← buffer, ← same] at mem
      exact fun none_ => none_ r mem of_
    rw [checkJob_stopped (.inl (by rw [is, kept, cancelled])), stands]
    rfl

/-- Any other job that loses a line goes back to it (R76). -/
theorem flush_rewound {segs : List Segment} {s : State} {j : JobId} {e : JobId × Nat × Context} (take : s.film.take = [])
    (first : (lostLines segs s.buffer).find? (fun e => decide (e.1 = j)) = some e)
    (lives : ¬ (s.jobs[j].state = .cancelled ∨ s.jobs[j].state = .free)) :
    (flush segs s).jobs[j] =
      { s.jobs[j] with
        state := (flush segs s).jobs[j].state, saved := some e.2.2, composed := e.2.1 - 1, exposed := s.jobs[j].delivered
        held := none, heldTimer := none, waitedFont := none, reason := .none } ∧
    (((flush segs s).jobs[j].state = .queued ∧ j ∈ (flush segs s).queue.rerun) ∨
      ((flush segs s).jobs[j].state = .composing ∧ j ∉ (flush segs s).queue.rerun)) ∧
    Flagged s.jobs[j].owner (flush segs s) := by
  obtain ⟨rfl, -, a, c, job, -, -, after, -, ends⟩ := flush_lost take first
  rw [← job] at lives ⊢
  rw [rewind_back lives] at after
  let u : State := putBack e (laidDown e.1 a)
  let back : Job :=
    { a.jobs[e.1] with
      state := .queued, saved := some e.2.2, composed := e.2.1 - 1, exposed := a.jobs[e.1].delivered, held := none
      heldTimer := none, waitedFont := none, reason := .none }
  have rewound : (u.notice a.jobs[e.1].owner .spoiled e.1 e.2.1).jobs[e.1] = back := by
    refine (put_same _ _ _).trans ?_
    rcases laidDown_job e.1 a with is | is <;> rw [is]
  have listed : e.1 ∈ (u.notice a.jobs[e.1].owner .spoiled e.1 e.2.1).queue.rerun := by
    show e.1 ∈ _ ++ [e.1]
    simp
  have flagged := after.flags _ (flagged_spoiled a.jobs[e.1].owner e.1 e.2.1 u)
  have is : c.jobs[e.1] = back := after.job.trans rewound
  have there := after.rerun.2 listed
  rw [ends]
  rcases flushEnd_queued (segs.map (·.job) ++ (s.buffer.filter (·.imgLive)).map (·.job))
    (show c.jobs[e.1].state = .queued by rw [is]) with left | ⟨flags, gone, fresh, selected⟩
  · rw [left.job, is]
    exact ⟨rfl, .inl ⟨rfl, left.rerun.2 there⟩, left.flags _ flagged⟩
  · rw [selected, is]
    exact ⟨rfl, .inr ⟨rfl, gone⟩, flags _ flagged⟩

/-- A job that loses no line (R76). -/
theorem flush_spared {segs : List Segment} {s : State} {j : JobId}
    (none_ : (lostLines segs s.buffer).find? (fun e => decide (e.1 = j)) = none)
    (rests : ∀ b ∈ s.buffer, b.job = j → b.imgLive = false) :
    (s.jobs[j].state ≠ .composing → s.jobs[j].state ≠ .queued → (flush segs s).jobs[j] = s.jobs[j]) ∧
    (s.jobs[j].state = .composing ∨ s.jobs[j].state = .queued →
      ((flush segs s).jobs[j].state = .queued ∨ (flush segs s).jobs[j].state = .composing) ∧
      (s.jobs[j].saved.isSome = true → (flush segs s).jobs[j] = { s.jobs[j] with state := (flush segs s).jobs[j].state })) := by
  have others (x : JobId × Nat × Context) (mem : x ∈ lostLines segs s.buffer) : x.1 ≠ j := by
    have not_ := List.find?_eq_none.1 none_ x mem
    rwa [decide_eq_true_iff] at not_
  let c : State := (firstLost (lostLines segs s.buffer)).foldl handOver (flushStart s)
  have same : c.jobs[j] = s.jobs[j] :=
    ((flushStart_untouched j s).trans (handOvers_untouched (fun x mem => others x (mem_firstLost mem)) _)).job
  have untouched : j ∉ segs.map (·.job) ++ (s.buffer.filter (·.imgLive)).map (·.job) := by
    rw [List.mem_append, List.mem_map, List.mem_map]
    rintro (⟨g, mem, rfl⟩ | ⟨r, mem, rfl⟩)
    · refine others (g.job, g.first, g.restart) ?_ rfl
      rw [lostLines_eq]
      exact List.mem_append_left _ (List.mem_map_of_mem mem)
    · obtain ⟨there, live_⟩ := List.mem_filter.1 mem
      rw [rests r there rfl] at live_
      cases live_
  rw [flush_eq]
  change (_ → _ → (flushEnd _ c).jobs[j] = _) ∧ (_ → ((flushEnd _ c).jobs[j].state = _ ∨ (flushEnd _ c).jobs[j].state = _) ∧
    (_ → (flushEnd _ c).jobs[j] = _))
  rw [← same]
  refine ⟨fun idle unqueued => (flushEnd_untouched _ idle unqueued fun mem => absurd mem untouched).job, fun runs => ?_⟩
  rcases runs with composing | queued
  · exact flushEnd_composing _ composing
  · rcases flushEnd_queued _ queued with left | ⟨-, -, fresh, selected⟩
    · rw [left.job]
      exact ⟨.inl queued, fun _ => rfl⟩
    · rw [selected]
      refine ⟨.inr rfl, fun some_ => ?_⟩
      obtain ⟨ctx, saved⟩ := Option.isSome_iff_exists.1 some_
      rw [saved]
      generalize c.jobs[j] = r at saved ⊢
      cases r
      cases saved
      rfl

/-! ## The magazine and the switches (R157, R158, R165, R166) -/

theorem filmChanged_eq (s : State) :
    filmChanged s =
      if s.imaging.st = .stopped ∧ (s.imaging.stop = .noFilm ∨ s.imaging.stop = .filmOut ∨ s.imaging.stop = .gate)
      then resumeTest s else s := by
  unfold filmChanged
  simp only [isFilm_iff]

theorem loadFilm_eq (feet : Nat) (s : State) :
    loadFilm feet s = filmChanged { s with film := { s.film with
      loaded := true, length := max 10 (min 200 feet) * 8640, p := 0, hw := 0, cutpos := 0, filmOut := false
      lowSent := false, pendingCut := false } } := rfl

theorem unloadFilm_eq {s : State} (loaded : s.film.loaded = true) :
    unloadFilm s =
      filmLost .noFilm
        (if s.film.takeUp = true ∧ s.film.doorClosed = true ∧ s.film.take ≠ []
        then spoil { s with film := { s.film with loaded := false, length := 0, p := 0, hw := 0, cutpos := 0 } }
        else { s with film := { s.film with loaded := false, length := 0, p := 0, hw := 0, cutpos := 0 } }) := by
  have falls : (s.film.gate && !s.film.take.isEmpty) = true ↔
      s.film.takeUp = true ∧ s.film.doorClosed = true ∧ s.film.take ≠ [] := by
    rw [Bool.and_eq_true, gate_iff, Bool.not_eq_true', ← Bool.not_eq_true, List.isEmpty_iff, and_assoc, and_assoc]
    exact and_iff_right loaded
  exact congrArg (filmLost .noFilm) (if_congr falls rfl rfl)

/-- A switch that changes (R165). -/
theorem switchEvent_changed {f : Film → Film} {s : State} (changes : f s.film ≠ s.film) :
    switchEvent f s = settle s.store.freeCount (afterSwitch s.film.gate (s.modFilm f)) := if_neg changes

theorem switchEvent_same {f : Film → Film} {s : State} (same : f s.film = s.film) : switchEvent f s = s := if_pos same

/-- The gate opened (R165). -/
theorem afterSwitch_falls {was : Bool} {s : State} (closed : was = true) (open_ : s.film.gate = false) :
    afterSwitch was s = filmLost .gate (if s.film.take = [] then s else spoil s) := by
  unfold afterSwitch
  rw [closed, open_]
  exact congrArg (filmLost .gate) (if_congr List.isEmpty_iff rfl rfl)

/-- The gate closed (R158). -/
theorem afterSwitch_rises {was : Bool} {s : State} (open_ : was = false) (closed : s.film.gate = true) :
    afterSwitch was s = filmChanged s := by
  unfold afterSwitch
  rw [open_, closed]
  rfl

theorem afterSwitch_same {was : Bool} {s : State} (same : s.film.gate = was) : afterSwitch was s = s := by
  unfold afterSwitch
  rw [same]
  cases was <;> rfl

/-- A switch closed: the gate closes with it where the rest of it is closed. -/
theorem switch_closes {f : Film → Film} {s : State} {rest : Prop} [Decidable rest] (changes : f s.film ≠ s.film)
    (was : s.film.gate = false) (is : (f s.film).gate = true ↔ rest) :
    switchEvent f s = settle s.store.freeCount (if rest then filmChanged (s.modFilm f) else s.modFilm f) := by
  rw [switchEvent_changed changes]
  refine congrArg _ ?_
  by_cases closed : rest
  · rw [if_pos closed]
    exact afterSwitch_rises was (is.2 closed)
  · rw [if_neg closed]
    refine afterSwitch_same (Eq.trans ?_ was.symm)
    exact Bool.eq_false_iff.2 (mt is.1 closed)

/-- A switch opened: the gate opens with it where it was closed. -/
theorem switch_opens {f : Film → Film} {s : State} {rest : Prop} [Decidable rest] (changes : f s.film ≠ s.film)
    (was : s.film.gate = true ↔ rest) (is : (f s.film).gate = false) :
    switchEvent f s =
      settle s.store.freeCount
        (if rest then filmLost .gate (if (f s.film).take = [] then s.modFilm f else spoil (s.modFilm f)) else s.modFilm f) := by
  rw [switchEvent_changed changes]
  refine congrArg _ ?_
  by_cases closed : rest
  · rw [if_pos closed]
    exact afterSwitch_falls (was.2 closed) is
  · rw [if_neg closed]
    refine afterSwitch_same (Eq.trans is (Eq.symm ?_))
    exact Bool.eq_false_iff.2 (mt was.1 closed)

/-- Settles O54: the events by what the switches and the magazine were, the loss by the sequencer's state, and the spoil job
by job: one that loses a line is rewound or freed, any other is left or selected again. -/
theorem filmAndGateEventsTaken : Obligations.FilmAndGateEventsTaken := by
  refine ⟨fun feet s => ?_, fun s => ?_, fun why code s kind => ?_, fun s => ?_⟩
  case refine_1 =>
    intro after load bare out
    have loads (t : State) : loadFilm feet.toNat t = load t := (loadFilm_eq feet.toNat t).trans (filmChanged_eq _)
    refine ⟨fun empty => ⟨?_, ?_⟩, fun loaded => ⟨?_, ?_⟩⟩
    · have is : magazineLoaded feet.toNat s = settle s.store.freeCount (load s) := by
        rw [magazineLoaded, empty, if_neg Bool.false_ne_true, loads]
      exact congrArg Host.Outcome.next is
    · have is : magazineOut s = s := by rw [magazineOut, empty, if_neg Bool.false_ne_true]
      exact congrArg Host.Outcome.next is
    · have is : magazineLoaded feet.toNat s = settle s.store.freeCount (load out) := by
        rw [magazineLoaded, loaded, if_pos rfl, loads, unloadFilm_eq loaded]
      exact congrArg Host.Outcome.next is
    · have is : magazineOut s = settle s.store.freeCount out := by
        rw [magazineOut, loaded, if_pos rfl, unloadFilm_eq loaded]
      exact congrArg Host.Outcome.next is
  case refine_2 =>
    intro after set falls rises up door loaded
    have rising (t : State) : filmChanged t = rises t := filmChanged_eq t
    have same (f : Film) (x y : Bool) (takeUp : f.takeUp = x) (doorClosed : f.doorClosed = y) :
        { f with takeUp := x, doorClosed := y } = f := by
      rw [← takeUp, ← doorClosed]
    have closed (x y : Bool) : ({ s.film with takeUp := x, doorClosed := y } : Film).gate = true ↔
        loaded = true ∧ x = true ∧ y = true := gate_iff _
    have shut (x y : Bool) (open_ : ¬ (x = true ∧ y = true)) :
        ({ s.film with takeUp := x, doorClosed := y } : Film).gate = false := by
      rw [Bool.eq_false_iff, Ne, closed]
      exact fun h => open_ h.2
    have now : s.film = { s.film with takeUp := up, doorClosed := door } := rfl
    refine ⟨fun is => ?_, fun is => ?_, fun is => ?_, fun is => ?_, fun is => ?_, fun is => ?_, fun is => ?_, fun is => ?_⟩
    · exact congrArg Host.Outcome.next (switchEvent_same (same s.film true _ is rfl))
    · exact congrArg Host.Outcome.next (switchEvent_same (same s.film false _ is rfl))
    · exact congrArg Host.Outcome.next (switchEvent_same (same s.film _ true rfl is))
    · exact congrArg Host.Outcome.next (switchEvent_same (same s.film _ false rfl is))
    · have changes : { s.film with takeUp := true } ≠ s.film := fun h => by
        have takeUp : true = up := congrArg Film.takeUp h
        rw [is] at takeUp
        cases takeUp
      have taken := switch_closes (f := fun f => { f with takeUp := true }) (rest := loaded = true ∧ door = true) changes
        (now ▸ shut up door fun h => by rw [is] at h; cases h.1) ((closed true door).trans (by simp))
      rw [rising] at taken
      exact congrArg Host.Outcome.next taken
    · have changes : { s.film with doorClosed := true } ≠ s.film := fun h => by
        have doorClosed : true = door := congrArg Film.doorClosed h
        rw [is] at doorClosed
        cases doorClosed
      have taken := switch_closes (f := fun f => { f with doorClosed := true }) (rest := loaded = true ∧ up = true) changes
        (now ▸ shut up door fun h => by rw [is] at h; cases h.2) ((closed up true).trans (by simp))
      rw [rising] at taken
      exact congrArg Host.Outcome.next taken
    · have changes : { s.film with takeUp := false } ≠ s.film := fun h => by
        have takeUp : false = up := congrArg Film.takeUp h
        rw [is] at takeUp
        cases takeUp
      exact congrArg Host.Outcome.next (switch_opens (f := fun f => { f with takeUp := false })
        (rest := loaded = true ∧ door = true) changes ((closed up door).trans (by rw [is]; simp)) (shut false door nofun))
    · have changes : { s.film with doorClosed := false } ≠ s.film := fun h => by
        have doorClosed : false = door := congrArg Film.doorClosed h
        rw [is] at doorClosed
        cases doorClosed
      exact congrArg Host.Outcome.next (switch_opens (f := fun f => { f with doorClosed := false })
        (rest := loaded = true ∧ up = true) changes ((closed up door).trans (by rw [is]; simp)) (shut up false nofun))
  case refine_3 =>
    intro i stopped film
    have coded : why.code = code := by
      rcases List.mem_cons.1 kind with is | is
      · cases is; rfl
      · cases List.mem_singleton.1 is; rfl
    have stops (t : State) (links : t.links = s.links) : enterStopped why t = stopped t := by
      rw [enterStopped_eq, coded, links]
    refine ⟨fun st => ?_, fun st => ?_, fun st is => ?_, fun st not_ => ?_, fun st => ?_⟩
    · refine Eq.trans ?_ (stops s rfl)
      unfold filmLost
      rw [show s.imaging.st = .idle from st]
    · refine Eq.trans ?_ (stops (giveBackImaging (abandonWork (s.modFilm fun f =>
        { f with move := none, cut := none, cutTimer := none }))) rfl)
      unfold filmLost
      generalize enterStopped why (giveBackImaging (abandonWork (s.modFilm fun f =>
        { f with move := none, cut := none, cutTimer := none }))) = t
      rcases st with st | st | st <;> rw [show s.imaging.st = _ from st]
    · unfold filmLost
      rw [show s.imaging.st = .stopped from st]
      exact if_pos ((isFilm_iff _).2 is)
    · unfold filmLost
      rw [show s.imaging.st = .stopped from st]
      exact if_neg (mt (isFilm_iff _).1 not_)
    · unfold filmLost
      rw [show s.imaging.st = .starting from st]
  case refine_4 =>
    intro t live_ lost earliest
    let u : State := s.modFilm fun f =>
      { f with take := [], pendingCut := false, move := none, cut := none, cutTimer := none }
    have is : t = flush s.film.take u := rfl
    have lines : lostLines s.film.take u.buffer = lost := lostLines_eq _ _
    have rests : ∀ b ∈ t.buffer, b.imgLive = false := by
      rw [is, flush_buffer]
      exact flushedBuffer_rests _ _
    refine ⟨spoil_film s, fun b mem => ?_, fun p => ?_, fun j line ctx early => ?_, fun j none_ still => ?_⟩
    · have not_ := rests b mem
      exact ⟨fun due => by simp [Record.imgLive, due] at not_, fun busy => by simp [Record.imgLive, busy] at not_⟩
    · have pos : t.mount.pos = (unpinned u).mount.pos := flush_pos _ _
      rw [pos]
      refine (unpinRecords_pos _ u p).trans ?_
      rw [List.countP_map]
      rfl
    · obtain ⟨e, first, same⟩ := Option.map_eq_some_iff.1 early
      rw [← lines] at first
      obtain ⟨mine, mem, -⟩ := flush_lost (s := u) rfl first
      obtain ⟨k, n, c⟩ := e
      cases same
      cases mine
      refine ⟨fun b there of_ x text below => ?_, fun cancelled => flush_cancelled (s := u) rfl first cancelled,
        fun notCancelled notFree => flush_rewound (s := u) rfl first fun h => h.elim notCancelled notFree⟩
      rw [is, flush_buffer, flushedBuffer, List.mem_filter, List.all_eq_true] at there
      have kept := there.2 _ mem
      by_contra notBusy
      have lost_ : b.lostBy (k, line, ctx) = true := by
        rw [Record.lostBy, text, decide_eq_true of_, decide_eq_true notBusy]
        exact decide_eq_true below
      rw [lost_] at kept
      cases kept
    · have none__ : (lostLines s.film.take u.buffer).find? (fun e => decide (e.1 = j)) = none := by
        rw [lines]
        exact Option.map_eq_none_iff.1 none_
      exact flush_spared (s := u) none__ still

end Sys2Proof.Proofs

/-! PROOFS. A line build (O39). -/

namespace Sys2Proof.Proofs

open Sys2Proof.Machine

/-! ## The build event (R98, R99, R62, R63) -/

theorem takeBuild_waits {s : State} (waits : s.engine.st ≠ .running) : takeBuild s = s := if_neg waits

theorem takeBuild_runs {j : JobId} {s : State} (composing : Composing j s) (running : s.engine.st = .running) :
    takeBuild s = settle s.store.freeCount (buildOnce j s) := by
  unfold takeBuild
  rw [if_pos running, (composingJob_some j s).2 composing]

theorem buildOnce_owed {j : JobId} {s : State} {o : OwedCut} (owed : s.engine.owed = some o) :
    buildOnce j s = appendOwed j o s := by
  unfold buildOnce
  rw [owed]

theorem isPreempted_iff (j : JobId) (s : State) :
    isPreempted j s = true ↔ s.jobs[j].cls ≠ .rush ∧ ∃ k : JobId, s.jobs[k].state = .queued ∧ s.jobs[k].cls = .rush := by
  rw [isPreempted, Bool.and_eq_true, decide_eq_true_iff, rushWaits, List.any_eq_true]
  simp [allJobs]

theorem buildOnce_preempted {j : JobId} {s : State} (none_ : s.engine.owed = none) (rush : isPreempted j s = true) :
    buildOnce j s = preempt j s := by
  unfold buildOnce
  rw [none_]
  exact if_pos rush

theorem buildOnce_line {j : JobId} {s : State} (none_ : s.engine.owed = none) (rush : ¬ isPreempted j s = true) :
    buildOnce j s =
      takeResult j (s.jobs[j].saved.getD (freshContext s)) (buildLine s s.jobs[j] (s.jobs[j].saved.getD (freshContext s))) s := by
  unfold buildOnce
  rw [none_]
  exact if_neg rush

theorem preempt_standing {j : JobId} {s : State} (standing : s.jobs[j].imagingDue = true ∧ s.jobs[j].textSinceCut = true) :
    preempt j s =
      { s with
        buffer := s.buffer ++ [⟨j, none, .due, .notDue⟩]
        jobs := put s.jobs j { s.jobs[j] with state := .queued, textSinceCut := false }
        engine := { s.engine with st := .idle, owed := none, work := none }
        queue := { s.queue with resume := some j } } := by
  unfold preempt
  dsimp only
  rw [if_pos (by rw [Bool.and_eq_true]; exact standing), appendCut, stopComposing, modJob_modJob]
  rfl

theorem preempt_bare {j : JobId} {s : State} (bare : ¬ (s.jobs[j].imagingDue = true ∧ s.jobs[j].textSinceCut = true)) :
    preempt j s =
      { s with
        jobs := put s.jobs j { s.jobs[j] with state := .queued }
        engine := { s.engine with st := .idle, owed := none, work := none }
        queue := { s.queue with resume := some j } } := by
  unfold preempt
  dsimp only
  rw [if_neg (by rw [Bool.and_eq_true]; exact bare)]
  rfl

theorem appendOwed_atEnd (j : JobId) (s : State) :
    appendOwed j .atEnd s = checkJob j
      { s with buffer := s.buffer ++ [⟨j, none, .due, .notDue⟩]
               jobs := put s.jobs j { s.jobs[j] with textSinceCut := false, state := .composed }
               engine := { s.engine with st := .idle, owed := none, work := none } } := by
  unfold appendOwed finishText appendCut stopComposing
  dsimp only
  rw [modJob_modJob]
  rfl

/-! ## Words, line ends and breaks (R3, R5, R101 to R107) -/

/-- The fill test without a hyphen glyph (R101). -/
theorem fits_iff (sh : Shape) (ws : List LineWord) :
    fits sh ws none = true ↔
      (ws.map fun w => (w.items.map fun i => i.piece.width).sum).sum + ((ws.filterMap (·.before)).map (·.min)).sum
        ≤ 12 * (sh.measure - sh.indent) ∧
      (ws.map fun w => w.items.countP fun i => i.piece.isGlyph).sum ≤ 160 := by
  rw [fits, Bool.and_eq_true, decide_eq_true_iff, decide_eq_true_iff]
  exact Iff.rfl

section

variable {s : State} {j : Job} {b : Build} {sh : Shape}

theorem wordTooWide_break {c : Candidate} (offered : offeredBreak s b.ctx.fmt sh b.words b.space b.cur = some c)
    (free : b.words = [] ∨ ¬ (b.ctx.fmt.ladder ≠ 0 ∧ b.ctx.fmt.ladder ≤ b.ctx.hyphens)) :
    wordTooWide s j b sh = justify j b (b.atBreak s sh c) := by
  unfold wordTooWide
  rw [offered]
  by_cases alone : b.words = []
  · rw [if_pos (List.isEmpty_iff.2 alone)]
  · rw [if_neg (by rw [List.isEmpty_iff]; exact alone)]
    exact if_neg (by rw [Build.ladderReached, decide_eq_true_iff]; exact free.resolve_left alone)

theorem wordTooWide_ladder {c : Candidate} (offered : offeredBreak s b.ctx.fmt sh b.words b.space b.cur = some c)
    (some_ : b.words ≠ []) (ladder : b.ctx.fmt.ladder ≠ 0 ∧ b.ctx.fmt.ladder ≤ b.ctx.hyphens) :
    wordTooWide s j b sh = closeByRuling j b sh .ladder (b.words.length + 1) (b.atBreak s sh c) := by
  unfold wordTooWide
  rw [offered, if_neg (by rw [List.isEmpty_iff]; exact some_)]
  exact if_pos (decide_eq_true ladder)

theorem wordTooWide_next (offered : offeredBreak s b.ctx.fmt sh b.words b.space b.cur = none) (some_ : b.words ≠ []) :
    wordTooWide s j b sh =
      if b.ctx.fmt.hyphenation = true ∧ startsInText s b.cur = true then
        closeByRuling j b sh .nobreak b.words.length (b.beforeWord sh .fill)
      else justify j b (b.beforeWord sh .fill) := by
  unfold wordTooWide
  rw [offered, if_neg (by rw [List.isEmpty_iff]; exact some_)]
  exact if_congr (Bool.and_eq_true _ _ ▸ Iff.rfl) rfl rfl

theorem wordTooWide_alone (offered : offeredBreak s b.ctx.fmt sh b.words b.space b.cur = none) (alone : b.words = []) :
    wordTooWide s j b sh = overset j b sh := by
  unfold wordTooWide
  rw [offered, if_pos (List.isEmpty_iff.2 alone)]

theorem endLine_word {by_ : ClosedBy} {atEnd : Bool} (some_ : b.cur ≠ []) :
    endLine s j b sh by_ atEnd =
      if fits sh (b.words ++ [⟨b.space, b.cur⟩]) none then
        justify j b ⟨sh, b.words ++ [⟨b.space, b.cur⟩], by_, false, ⟨b.ctx, b.cut⟩, atEnd⟩
      else wordTooWide s j b sh := if_neg (by rw [List.isEmpty_iff]; exact some_)

theorem endLine_space {by_ : ClosedBy} {atEnd : Bool} (none_ : b.cur = []) :
    endLine s j b sh by_ atEnd = justify j b ⟨sh, b.words, by_, false, ⟨b.ctx, b.cut⟩, atEnd⟩ :=
  if_pos (List.isEmpty_iff.2 none_)

theorem spaceByte_dropped (dropped : b.lastSize = none ∨ b.cur = []) : spaceByte s j b = .go b := by
  unfold spaceByte
  split
  · next size sh last shape =>
    refine if_pos (List.isEmpty_iff.2 (dropped.resolve_left ?_))
    rw [last]
    exact nofun
  · rfl

theorem spaceByte_word {size : Nat} (last : b.lastSize = some size) (shape : b.shape = some sh) (some_ : b.cur ≠ []) :
    spaceByte s j b =
      if fits sh (b.words ++ [⟨b.space, b.cur⟩]) none then
        .go { b with words := b.words ++ [⟨b.space, b.cur⟩], cur := []
                     space := some ⟨5 * b.ctx.fmt.spMin * size, 5 * b.ctx.fmt.spNorm * size, 5 * b.ctx.fmt.spMax * size, size,
                       ⟨b.ctx, b.cut⟩⟩ }
      else wordTooWide s j b sh := by
  unfold spaceByte
  rw [last, shape]
  exact if_neg (by rw [List.isEmpty_iff]; exact some_)

end

/-! ## The forced break (R104) -/

theorem getLast?_of_ascending {l : List Nat} {n : Nat} (ascending : l.Pairwise (· < ·)) (mem : n ∈ l)
    (greatest : ∀ m ∈ l, m ≤ n) : l.getLast? = some n := by
  have some_ : l ≠ [] := List.ne_nil_of_mem mem
  have below : n ≤ l.getLast some_ := (ascending.imp (S := (· ≤ ·)) Nat.le_of_lt).rel_getLast mem
  rw [List.getLast?_eq_getLast_of_ne_nil some_]
  exact congrArg some (le_antisymm (greatest _ (List.getLast_mem some_)) below)

theorem head?_of_ascending {l : List Nat} {n : Nat} (ascending : l.Pairwise (· < ·)) (mem : n ∈ l)
    (least : ∀ m ∈ l, n ≤ m) : l.head? = some n := by
  have some_ : l ≠ [] := List.ne_nil_of_mem mem
  have above : l.head some_ ≤ n := (ascending.imp (S := (· ≤ ·)) Nat.le_of_lt).rel_head mem
  rw [List.head?_eq_some_head some_]
  exact congrArg some (le_antisymm above (least _ (List.head_mem some_)))

/-- The first `m` items of a word end with a glyph. -/
def EndsInGlyph (is : List Item) (m : Nat) : Prop :=
  1 ≤ m ∧ ((is[m - 1]?).map fun i => i.piece.isGlyph) = some true

/-- The lengths at which a word can be broken by force: after each of its glyphs. -/
def glyphEnds (is : List Item) : List Nat :=
  (List.range' 1 is.length).filter fun n =>
    match is[n - 1]? with
    | some i => i.piece.isGlyph
    | none => false

theorem forcedLength_def (sh : Shape) (is : List Item) :
    forcedLength sh is =
      (((glyphEnds is).filter fun n => fits sh [⟨none, is.take n⟩] none).getLast?).getD ((glyphEnds is).head?.getD is.length) := by
  change (match ((glyphEnds is).filter fun n => fits sh [⟨none, is.take n⟩] none).getLast? with
    | some n => n
    | none => (glyphEnds is).head?.getD is.length) = _
  cases ((glyphEnds is).filter fun n => fits sh [⟨none, is.take n⟩] none).getLast? <;> rfl

theorem glyphEnds_ascending (is : List Item) : (glyphEnds is).Pairwise (· < ·) :=
  (List.pairwise_lt_range' _ Nat.one_pos).filter _

theorem EndsInGlyph.le {is : List Item} {m : Nat} (ends : EndsInGlyph is m) : m ≤ is.length := by
  obtain ⟨pos, glyph⟩ := ends
  obtain ⟨i, found, -⟩ := Option.map_eq_some_iff.1 glyph
  have := (List.getElem?_eq_some_iff.1 found).1
  omega

theorem mem_glyphEnds {is : List Item} {m : Nat} : m ∈ glyphEnds is ↔ EndsInGlyph is m := by
  rw [glyphEnds, List.mem_filter, List.mem_range'_1]
  constructor
  · rintro ⟨⟨pos, -⟩, glyph⟩
    refine ⟨pos, ?_⟩
    cases found : is[m - 1]? with
    | none => rw [found] at glyph; exact absurd glyph nofun
    | some i => rw [found] at glyph; exact congrArg some glyph
  · intro ends
    have le := ends.le
    obtain ⟨pos, glyph⟩ := ends
    refine ⟨⟨pos, by omega⟩, ?_⟩
    obtain ⟨i, found, isGlyph⟩ := Option.map_eq_some_iff.1 glyph
    rw [found]
    exact isGlyph

theorem forcedLength_last {sh : Shape} {is : List Item} {n : Nat} (ends : EndsInGlyph is n)
    (room : fits sh [⟨none, is.take n⟩] none = true)
    (last : ∀ m, EndsInGlyph is m → fits sh [⟨none, is.take m⟩] none = true → m ≤ n) : forcedLength sh is = n := by
  rw [forcedLength_def, getLast?_of_ascending ((glyphEnds_ascending is).filter _)
    (List.mem_filter.2 ⟨mem_glyphEnds.2 ends, room⟩) fun m mem => ?_]
  · rfl
  · obtain ⟨mem, room⟩ := List.mem_filter.1 mem
    exact last m (mem_glyphEnds.1 mem) room

theorem forcedLength_first {sh : Shape} {is : List Item} {n : Nat} (ends : EndsInGlyph is n)
    (none_ : ∀ m, EndsInGlyph is m → ¬ fits sh [⟨none, is.take m⟩] none = true)
    (first : ∀ m, EndsInGlyph is m → n ≤ m) : forcedLength sh is = n := by
  rw [forcedLength_def, List.filter_eq_nil_iff.2 fun m mem => none_ m (mem_glyphEnds.1 mem),
    head?_of_ascending (glyphEnds_ascending is) (mem_glyphEnds.2 ends) fun m mem => first m (mem_glyphEnds.1 mem)]
  rfl

/-- One word, with no space before it: its glyphs alone are measured. -/
theorem fits_alone {sh : Shape} {is : List Item} :
    fits sh [⟨none, is⟩] none = true ↔
      (is.map fun i => i.piece.width).sum ≤ 12 * (sh.measure - sh.indent) ∧ is.countP (fun i => i.piece.isGlyph) ≤ 160 := by
  simp [fits_iff]

end Sys2Proof.Proofs

/-! PROOFS. A line build, its parts as the obligation states them (O39). -/

namespace Sys2Proof.Proofs

open Sys2Proof.Machine

/-! ## The reading of the text (R98, R1, R5, R11) -/

section

variable {s : State} {j : Job} {b : Build}

theorem buildLine_later {ctx : Context} (later : ctx.offset ≠ 0) :
    buildLine s j ctx = readText s j ((jobText s j).drop (ctx.offset - ctx.runBytes)) (startBuild ctx) := if_neg later

theorem buildLine_go {ctx : Context} {b1 : Build} (start : ctx.offset = 0)
    (selected : selectFont s j (startBuild ctx) ctx.fmt.font 0 = .go b1) :
    buildLine s j ctx = readText s j ((jobText s j).drop (ctx.offset - ctx.runBytes)) b1 := by
  unfold buildLine
  dsimp only
  rw [if_pos start, selected]

theorem buildLine_stop {ctx : Context} {r : Result} (start : ctx.offset = 0)
    (selected : selectFont s j (startBuild ctx) ctx.fmt.font 0 = .stop r) : buildLine s j ctx = r := by
  unfold buildLine
  dsimp only
  rw [if_pos start, selected]

theorem readText_go {x : Token} {rest : List Token} {b1 : Build} (read : readToken s j b x = .go b1) :
    readText s j (x :: rest) b = readText s j rest b1 := by
  rw [readText, read]

theorem readText_stop {x : Token} {rest : List Token} {r : Result} (read : readToken s j b x = .stop r) :
    readText s j (x :: rest) b = r := by
  rw [readText, read]

theorem readText_end {r : Result} (ended : endOfText s j b = .stop r) : readText s j [] b = r := by
  rw [readText, ended]

theorem endOfText_bare (text : b.reading = .text) (none_ : b.shape = none) :
    endOfText s j b = .stop ⟨.ended ⟨b.ctx, b.cut⟩, b.exc⟩ := by
  unfold endOfText
  rw [text, none_]
  rfl

theorem endOfText_line {sh : Shape} (text : b.reading = .text) (shape : b.shape = some sh) :
    endOfText s j b = endLine s j b sh .quad true := by
  unfold endOfText
  rw [text, shape]

theorem quadByte_line {sh : Shape} (shape : b.shape = some sh) : quadByte s j b = endLine s j b sh .quad false := by
  unfold quadByte
  rw [shape]

theorem spreadByte_line {sh : Shape} (shape : b.shape = some sh) : spreadByte s j b = endLine s j b sh .spread false := by
  unfold spreadByte
  rw [shape]

theorem quadByte_bare (none_ : b.shape = none) :
    quadByte s j b = .go
      { b with cur := []
               ctx := { b.ctx with pendingV := min 999 (b.ctx.pendingV + b.ctx.fmt.leading), hyphens := 0 } } := by
  unfold quadByte
  rw [none_]
  rfl

theorem spreadByte_bare (none_ : b.shape = none) : spreadByte s j b = .go { b with cur := [] } := by
  unfold spreadByte
  rw [none_]

end

/-! ## Exceptions (R103) -/

section

variable {j : Job} {b : Build} {k : Exc}

theorem ruling_decided {a : Action} (decided : decisionFor j b.ctx.line k = some a) : b.ruling j k = .act a := by
  rw [Build.ruling, ruling, decided]

theorem ruling_undecided (undecided : decisionFor j b.ctx.line k = none) :
    b.ruling j k = if b.ctx.fmt.mask.has k = true then .hold else .act .default := by
  rw [Build.ruling, ruling, undecided]

end

/-! ## The marks and lines a break leaves (R102) -/

section

variable {b : Build} {sh : Shape}

theorem afterItem_eq (n : Nat) : b.afterItem n = ((b.cur[n - 1]?).map (·.after)).getD ⟨b.ctx, b.cut⟩ := by
  unfold Build.afterItem
  cases b.cur[n - 1]? <;> rfl

theorem beforeWord_eq (by_ : ClosedBy) :
    b.beforeWord sh by_ = ⟨sh, b.words, by_, false, (b.space.map (·.after)).getD ⟨b.ctx, b.cut⟩, false⟩ := by
  unfold Build.beforeWord
  cases b.space <;> rfl

theorem atBreak_eq (s : State) (c : Candidate) :
    b.atBreak s sh c =
      ⟨sh, b.words ++ [⟨b.space, b.cur.take c.upTo ++ c.hyphen.toList.map fun fz =>
          ⟨.glyph ⟨0x2D, 0x2D, fz.1, fz.2, 5 * fontWidth s fz.1 0x2D * fz.2⟩,
            ((b.cur[c.upTo - 1]?).map (·.after)).getD ⟨b.ctx, b.cut⟩⟩⟩], .fill, true,
        ((b.cur[c.upTo - 1]?).map (·.after)).getD ⟨b.ctx, b.cut⟩, false⟩ := by
  rw [← afterItem_eq]
  unfold Build.atBreak
  cases c.hyphen <;> rfl

theorem atForced_eq {by_ : ClosedBy} {n : Nat} (length : forcedLength sh b.cur = n) :
    b.atForced sh by_ =
      ⟨sh, [⟨b.space, b.cur.take n⟩], by_, false, ((b.cur[n - 1]?).map (·.after)).getD ⟨b.ctx, b.cut⟩, false⟩ := by
  rw [Build.atForced, length, afterItem_eq]

end

theorem closeAtWord_outside {sh : Shape} {ws : List LineWord} {k : Nat} (outside : k < 2 ∨ ws.length < k) :
    closeAtWord sh ws k = none := by
  unfold closeAtWord
  by_cases small : k < 2
  · exact if_pos small
  · have beyond := outside.resolve_left small
    rw [if_neg small, List.getElem?_eq_none (by omega)]
    rfl

theorem closeAtWord_word {sh : Shape} {ws : List LineWord} {k : Nat} {sp : Space} {items : List Item} (inside : 2 ≤ k)
    (word : ws[k - 1]? = some ⟨some sp, items⟩) :
    closeAtWord sh ws k = some ⟨sh, ws.take (k - 1), .fill, false, sp.after, false⟩ := by
  unfold closeAtWord
  rw [if_neg (by omega), word]
  rfl

theorem closeAtWord_fill {sh : Shape} {ws : List LineWord} {k : Nat} {c : Closed} (closes : closeAtWord sh ws k = some c) :
    c.shape = sh ∧ c.by_ = .fill := by
  unfold closeAtWord at closes
  split at closes
  · exact absurd closes nofun
  · split at closes
    · cases closes
      exact ⟨rfl, rfl⟩
    · exact absurd closes nofun

/-! ## Fonts (R79, R100, R104, R105) -/

theorem startsInText_iff {s : State} {is : List Item} :
    startsInText s is = true ↔
      ∃ g, (is.findSome? fun i => match i.piece with
        | .glyph g => some g
        | _ => none) = some g ∧ isTextFont s g.font = true := by
  unfold startsInText
  cases found : is.findSome? fun i => match i.piece with
    | .glyph g => some g
    | _ => none with
  | none => simp
  | some g => simp

theorem isTextFont_iff {s : State} {f : Nat} :
    isTextFont s f = true ↔ ∃ lv st tb dn sb hy nm, descAt s f = some (.font .textFont lv st tb dn sb hy nm) := by
  unfold isTextFont
  constructor
  · intro text
    split at text
    · next lv st tb dn sb hy nm found => exact ⟨lv, st, tb, dn, sb, hy, nm, found⟩
    · exact absurd text nofun
  · rintro ⟨lv, st, tb, dn, sb, hy, nm, found⟩
    rw [found]

theorem WidthTable.entry_of {t : WidthTable} {i : Fin 96} {c : Byte} (code : c.toNat = 0x20 + i.val) :
    t.entry c = t.widths[i] := by
  have inside : 32 ≤ c.toNat ∧ c.toNat < 128 := by omega
  have place : c.toNat - 32 = i.val := by omega
  unfold Machine.WidthTable.entry
  simp only [inside, place]
  rfl

/-! ## A closed line (R107 to R109) -/

theorem isLoose_iff {width glyphs : Nat} {sp : List Space} :
    isLoose width glyphs sp = true ↔
      (sp = [] ∧ glyphs < width) ∨ (sp ≠ [] ∧ ((sumMax sp - sumNorm sp : Nat) : Int) < (width : Int) - glyphs - sumNorm sp) := by
  unfold isLoose excess
  cases sp with
  | nil => simp
  | cons x xs => simp

theorem loose_iff {c : Closed} :
    c.loose = true ↔ c.setting = .justify ∧
      ((spacesOf c.words = [] ∧ wordsWidth c.words < c.shape.width) ∨
        (spacesOf c.words ≠ [] ∧ ((sumMax (spacesOf c.words) - sumNorm (spacesOf c.words) : Nat) : Int) <
          (c.shape.width : Int) - wordsWidth c.words - sumNorm (spacesOf c.words))) := by
  rw [Closed.loose, Bool.and_eq_true, decide_eq_true_iff, isLoose_iff]

theorem setting_eq (c : Closed) :
    c.setting = match c.by_ with
      | .fill => c.shape.align
      | .quad => if c.shape.align = .justify then .left else c.shape.align
      | .spread => .justify
      | .ragged => .left := rfl

theorem justify_close {j : Job} {b : Build} {c : Closed} (close : ¬ c.loose = true) :
    justify j b c = .stop ⟨c.place c.setting, b.exc⟩ := if_neg close

theorem justify_loose {j : Job} {b : Build} {c : Closed} (loose : c.loose = true) :
    justify j b c = .stop ⟨
      match b.ruling j .loose with
      | .hold => .held .loose c.words.length
      | .act .ragged => { c with by_ := .ragged }.place .left
      | .act (.breakBefore k) =>
        match closeAtWord c.shape c.words k with
        | some d => d.place c.shape.align
        | none => c.place .justify
      | .act _ => c.place .justify, (b.raise j .loose).exc⟩ := by
  unfold justify
  rw [if_pos loose]
  dsimp only
  cases b.ruling j .loose with
  | hold => rfl
  | act a =>
    cases a with
    | breakBefore k =>
      dsimp only
      cases closes : closeAtWord c.shape c.words k with
      | none => rfl
      | some d =>
        obtain ⟨shape, fill⟩ := closeAtWord_fill closes
        dsimp only
        rw [Closed.setting, shape, fill]
        rfl
    | _ => rfl

/-! ## MISSING (R104) -/

theorem measureGlyph_present {s : State} {j : Job} {b : Build} {c : Byte} (present : fontWidth s b.ctx.fmt.font c ≠ 0) :
    measureGlyph s j b c = .go (b.addGlyph c c (fontWidth s b.ctx.fmt.font c)) := if_pos present

theorem measureGlyph_missing {s : State} {j : Job} {b : Build} {c : Byte} (missing : fontWidth s b.ctx.fmt.font c = 0) :
    measureGlyph s j b c =
      match b.ruling j .missing with
      | .hold => .stop ⟨.held .missing b.words.length, (b.raise j .missing).exc⟩
      | .act .proposed => .go ((b.raise j .missing).addGlyph c c 0)
      | .act _ => .go ((b.raise j .missing).addGlyph c (fontSubstitute s b.ctx.fmt.font)
          (fontWidth s b.ctx.fmt.font (fontSubstitute s b.ctx.fmt.font))) := by
  unfold measureGlyph
  dsimp only
  rw [if_neg (not_not.2 missing)] <;> rfl

end Sys2Proof.Proofs

/-! PROOFS. O39 settled. -/

namespace Sys2Proof.Proofs

open Sys2Proof.Machine

/-- Settles O39: each part of a build by its equation. -/
theorem lineBuildInOrder : Obligations.LineBuildInOrder := by
  unfold Obligations.LineBuildInOrder
  refine ⟨?event, ?reading, ?lineEnds, ?exceptions, ?tooWide, ?forced, ?atWord, ?missing, ?closed, ?fonts⟩
  case event =>
    intro j s composing after ctx rush cut owed done standing preempted
    have taken (running : s.engine.st = .running) {t : State} (once : buildOnce j s = t) : exec .lineBuild s = after t := by
      rw [exec_lineBuild, takeBuild_runs composing running, once]
    refine ⟨fun waits => ?_, fun running due => ?_, fun running due => ?_, fun running free isRush => ?_,
      fun running free noRush => ?_⟩
    · rw [exec_lineBuild, takeBuild_waits waits]
    · exact taken running ((buildOnce_owed due).trans rfl)
    · exact taken running ((buildOnce_owed due).trans (appendOwed_atEnd j s))
    · refine taken running ((buildOnce_preempted free ((isPreempted_iff j s).2 isRush)).trans ?_)
      by_cases stands : standing
      · refine (preempt_standing stands).trans ?_
        simp [preempted, stands]
        rfl
      · refine (preempt_bare stands).trans ?_
        simp [preempted, stands]
    · exact taken running (buildOnce_line free (mt (isPreempted_iff j s).1 noRush))
  case reading =>
    intro s j ctx b x rest none_ start text go
    refine ⟨buildLine_later, fun atStart => ?_, ?_, ?_, fun r => readText_end, endOfText_bare, fun sh => endOfText_line⟩
    · change _ = go (selectFont s j (startBuild ctx) ctx.fmt.font 0) _
      cases selected : selectFont s j (startBuild ctx) ctx.fmt.font 0 with
      | go b1 => exact buildLine_go atStart selected
      | stop r => exact buildLine_stop atStart selected
    · cases read : readToken s j b x with
      | go b1 => exact readText_go read
      | stop r => exact readText_stop read
    · rintro c rfl
      rfl
  case lineEnds =>
    intro s j b sh by_ atEnd words fit closed answer
    have fit_iff : fits sh words none = true ↔ fit := fits_iff sh words
    refine ⟨fun shape => ⟨quadByte_line shape, spreadByte_line shape⟩,
      fun none_ => ⟨quadByte_bare none_, spreadByte_bare none_⟩, endLine_space, fun some_ fitting => ?_,
      fun some_ full => ?_, spaceByte_dropped, fun size last shape some_ => ⟨fun fitting => ?_, fun full => ?_⟩⟩
    · exact (endLine_word some_).trans (if_pos (fit_iff.2 fitting))
    · exact (endLine_word some_).trans (if_neg (mt fit_iff.1 full))
    · exact (spaceByte_word last shape some_).trans (if_pos (fit_iff.2 fitting))
    · exact (spaceByte_word last shape some_).trans (if_neg (mt fit_iff.1 full))
  case exceptions =>
    intro j b k entry
    refine ⟨?_, rfl⟩
    cases decided : entry with
    | none => exact ruling_undecided decided
    | some a => exact ruling_decided decided
  case tooWide =>
    intro s j b sh offered nextAt before hyphen taken shortened settled ladder text answer
    have before_eq (by_ : ClosedBy) : b.beforeWord sh by_ = before by_ := beforeWord_eq by_
    have taken_eq (c : Candidate) : b.atBreak s sh c = taken c := atBreak_eq s c
    have settled_eq (k : Exc) (count : Nat) (proposed : Closed) :
        closeByRuling j b sh k count proposed = settled k count proposed := by
      unfold closeByRuling
      simp only [before_eq]
      rfl
    have text_iff : startsInText s b.cur = true ↔ text := startsInText_iff
    refine ⟨fun c offer free => ?_, fun c offer some_ reached => ?_, fun none_ some_ inText => ?_,
      fun none_ some_ noText => ?_, fun none_ alone => ?_⟩
    · exact (wordTooWide_break offer free).trans (by rw [taken_eq])
    · exact (wordTooWide_ladder offer some_ reached).trans (by rw [taken_eq, settled_eq])
    · refine (wordTooWide_next none_ some_).trans ?_
      rw [if_pos (inText.imp_right text_iff.2), settled_eq, before_eq]
    · refine (wordTooWide_next none_ some_).trans ?_
      rw [if_neg (mt (And.imp_right text_iff.1) noText), before_eq]
    · exact (wordTooWide_alone none_ alone).trans rfl
  case forced =>
    intro b sh by_ n ends room endsHere which
    refine atForced_eq ?_
    obtain ⟨fitting, last⟩ | ⟨none_, first⟩ := which
    · exact forcedLength_last endsHere (fits_alone.2 fitting) fun m ends fitting => last m ends.le ends (fits_alone.1 fitting)
    · exact forcedLength_first endsHere (fun m ends fitting => none_ m ends.le ends (fits_alone.1 fitting))
        fun m ends => first m ends.le ends
  case atWord => exact fun sh ws k => ⟨closeAtWord_outside, fun sp items => closeAtWord_word⟩
  case missing =>
    intro s j b c f width placed
    exact ⟨measureGlyph_present, fun missing => (measureGlyph_missing missing).trans rfl⟩
  case closed =>
    intro j b c a sp glyphs width loose
    have setting : c.setting = a := setting_eq c
    have loose_iff : c.loose = true ↔ loose := by
      rw [Proofs.loose_iff, setting]
      rfl
    refine ⟨fun close => ?_, fun isLoose => (justify_loose (loose_iff.2 isLoose)).trans rfl⟩
    rw [justify_close (mt loose_iff.1 close), setting]
  case fonts =>
    refine fun s f => ⟨fun k lv st tb dn sb hy nm font => ⟨?_, fun i c code => ?_⟩, isTextFont_iff⟩
    · rw [fontSubstitute, font]
    · rw [fontWidth, font]
      exact WidthTable.entry_of code

end Sys2Proof.Proofs
